-- ==== Sys2Proof/Word.lean ====
section
/-! DEFINITION. The word types of the block: 32-bit data words, 8-bit bytes of the host pipeline, 8-bit slot addresses. -/

namespace Sys2Proof

/-- A data word: 32 bits, bit 0 least significant, always unsigned (00_scope.md R6, R8). -/
abbrev Word := BitVec 32

/-- A byte of the host's byte strings (44_host_pipeline.md, opening paragraph). -/
abbrev Byte := BitVec 8

/-- The 8-bit word address of a register slot, the `addr` port (10_state.md R36, 20_memory.md R60). -/
abbrev SlotAddr := BitVec 8

end Sys2Proof
end

