-- ==== Sys2Proof/Config.lean ====
section
/-! DEFINITION. The free values: what the spec calls unspecified, as a constant with no body. -/

namespace Sys2Proof

/-- FREE VALUE (logs 5, 6): the n-th word the spec leaves unspecified ("any value", a draw: 93_implementation_defined.md
section 1, 92_eei_decisions.md D3, D29). Nothing in Lean can say which word it is. -/
opaque Config.unspecifiedWord : Nat → Word

end Sys2Proof
end

