-- ==== Sys2Proof/Syntax.lean ====
section
/-! DEFINITION. The syntax: the five rows of spec/opcode_table.json, the three commands, the bus words and the input ports. -/

namespace Sys2Proof

/-- One constructor per row of spec/opcode_table.json. Each is one bus cycle of the host (30_encoding.md R80). -/
inductive Instr where
  /-- Command word 0x00000001 written to CMD (30_encoding.md R82, 42_key_schedule.md R143). -/
  | expand
  /-- Command word 0x00000002 written to CMD (30_encoding.md R82, 43_cipher_engine.md R168). -/
  | encrypt
  /-- Command word 0x00000003 written to CMD (30_encoding.md R82, 43_cipher_engine.md R169). -/
  | decrypt
  /-- `we = 0`: read slot `a` (20_memory.md R62). -/
  | rd (a : SlotAddr)
  /-- `we = 1`: write `v` to slot `a` (20_memory.md R63). -/
  | wr (a : SlotAddr) (v : Word)
deriving DecidableEq, Repr

/-- The three commands of 30_encoding.md R82. -/
inductive Command where
  | expand
  | encrypt
  | decrypt
deriving DecidableEq, Repr

/-- A bus operation as words: the 9-bit control word `we, addr[7:0]` and the data word (30_encoding.md R85). -/
structure BusWords where
  control : BitVec 9
  wdata : Word
deriving DecidableEq, Repr

/-- What the input ports carry in one cycle (10_state.md R36); `clk` is the step itself. -/
structure PortSample where
  rst : Bool
  we : Bool
  addr : SlotAddr
  wdata : Word
deriving DecidableEq, Repr

end Sys2Proof
end

