-- ==== Sys2Proof/WellFormed.lean ====
section
/-! DEFINITION. Which instructions are well formed: every bus cycle has one spelling. -/

namespace Sys2Proof

/-- The three legal command words (30_encoding.md R81, second sentence). -/
def isCommandWord (v : Word) : Bool :=
  v == 0x00000001#32 || v == 0x00000002#32 || v == 0x00000003#32

/-- DESIGN CHOICE (log 8), safe: a legal command word written to CMD is spelled as its own row of the table, so
`.wr 0x00 v` with such a `v` is not well formed. It still has its meaning, that of the command. Every other instruction
is well formed: "On the bus side, every (`we`, `addr`) pair is legal" (30_encoding.md R83). -/
def WellFormed : Instr → Bool
  | .expand => true
  | .encrypt => true
  | .decrypt => true
  | .rd _ => true
  | .wr a v => !(a == 0x00#8 && isCommandWord v)

end Sys2Proof
end

