-- ==== Sys2Proof/Decode.lean ====
section
/-! DEFINITION. The decoder, total on every word, and the encoder (30_encoding.md). -/

namespace Sys2Proof

/-- Why the decoder refuses a number that is no encoding of the table. Safe: these are answers about numbers, and the block
itself gives every bus cycle a meaning (30_encoding.md R86). -/
inductive DecodeReject where
  /-- Raised by `decodeCommandWord`: not one of the three legal command words (30_encoding.md R83). -/
  | illegalCommandWord
  /-- Raised by `decodeBusNumber`: a bit above the 9-bit control word is set where the bus has no line (30_encoding.md R85). -/
  | strayControlBits
deriving DecidableEq, Repr

/-- The field OPC, bits 3:0 of a command word (30_encoding.md R81). -/
def opcField (v : Word) : BitVec 4 := v.extractLsb' 0 4

/-- The field RSVD, bits 31:4 of a command word (30_encoding.md R81). -/
def rsvdField (v : Word) : BitVec 28 := v.extractLsb' 4 28

/-- The command an opcode names, where it names one (30_encoding.md R81). -/
def commandOfOpc (opc : BitVec 4) : Option Command :=
  if opc = 0x1#4 then some .expand
  else if opc = 0x2#4 then some .encrypt
  else if opc = 0x3#4 then some .decrypt
  else none

/-- The command a word written to CMD names: "legal exactly when `RSVD = 0` and `OPC` is 0x1, 0x2 or 0x3"
(30_encoding.md R81, R83). -/
def commandOf (v : Word) : Option Command :=
  if rsvdField v = 0#28 then commandOfOpc (opcField v) else none

/-- The instruction of a command. -/
def Command.instr : Command → Instr
  | .expand => .expand
  | .encrypt => .encrypt
  | .decrypt => .decrypt

/-- The command word of a command (30_encoding.md R82, R89). -/
def Command.word : Command → Word
  | .expand => 0x00000001#32
  | .encrypt => 0x00000002#32
  | .decrypt => 0x00000003#32

/-- Format CMD: a command word on its own. -/
def decodeCommandWord (v : Word) : Except DecodeReject Instr :=
  match commandOf v with
  | some p => .ok p.instr
  | none => .error .illegalCommandWord

/-- The write strobe of a control word, its bit 8 (30_encoding.md R85). -/
def controlWe (c : BitVec 9) : Bool := c.getLsbD 8

/-- The slot address of a control word, its bits 7:0 (30_encoding.md R85). -/
def controlAddr (c : BitVec 9) : SlotAddr := c.extractLsb' 0 8

/-- The control word `we, addr[7:0]` (30_encoding.md R85). -/
def controlWord (we : Bool) (a : SlotAddr) : BitVec 9 := BitVec.ofBool we ++ a

/-- Format BUS: every control word and data word has one instruction (30_encoding.md R86). A write of a legal command word
to CMD is that command's own instruction (DESIGN CHOICE, log 8); a read ignores `wdata`. -/
def decode (b : BusWords) : Instr :=
  if controlWe b.control then
    if controlAddr b.control = 0x00#8 then
      match commandOf b.wdata with
      | some p => p.instr
      | none => .wr 0x00#8 b.wdata
    else .wr (controlAddr b.control) b.wdata
  else .rd (controlAddr b.control)

/-- The bus words the ports carry in a cycle (30_encoding.md R80). -/
def PortSample.busWords (p : PortSample) : BusWords := ⟨controlWord p.we p.addr, p.wdata⟩

/-- The instruction the block runs in a cycle with `rst = 0`. -/
def decodePorts (p : PortSample) : Instr := decode p.busWords

/-- Format BUS from one number, numbered as DESIGN CHOICE (log 9) says: the control word in bits 8:0, no line in bits 15:9,
the data word in bits 47:16. -/
def decodeBusNumber (w : Nat) : Except DecodeReject Instr :=
  if (BitVec.ofNat 16 w).extractLsb' 9 7 = 0#7 then
    .ok (decode ⟨BitVec.ofNat 9 w, BitVec.ofNat 32 (w >>> 16)⟩)
  else .error .strayControlBits

/-- The instruction read from an instruction's bits as the opcode table numbers them: a row of 32 bits is of format CMD,
any other of format BUS. -/
def decodeTableWord (nbits w : Nat) : Option Instr :=
  if nbits = 32 then (decodeCommandWord (BitVec.ofNat 32 w)).toOption
  else (decodeBusNumber w).toOption

/-- The input ports that present the same bits to the block: a command word is the `wdata` of a write to CMD
(30_encoding.md R80, R89), a bus operation is driven as it stands. -/
def tableWordPorts (nbits w : Nat) : PortSample :=
  if nbits = 32 then ⟨false, true, 0x00#8, BitVec.ofNat 32 w⟩
  else ⟨false, controlWe (BitVec.ofNat 9 w), controlAddr (BitVec.ofNat 9 w), BitVec.ofNat 32 (w >>> 16)⟩

/-- The bus words of an instruction (30_encoding.md R85, R89). A read drives zeros on `wdata`. -/
def encode : Instr → BusWords
  | .expand => ⟨0x100#9, Command.expand.word⟩
  | .encrypt => ⟨0x100#9, Command.encrypt.word⟩
  | .decrypt => ⟨0x100#9, Command.decrypt.word⟩
  | .rd a => ⟨controlWord false a, 0x00000000#32⟩
  | .wr a v => ⟨controlWord true a, v⟩

/-- The command word of an instruction of format CMD (30_encoding.md R82). -/
def encodeCommandWord : Instr → Option Word
  | .expand => some Command.expand.word
  | .encrypt => some Command.encrypt.word
  | .decrypt => some Command.decrypt.word
  | .rd _ => none
  | .wr _ _ => none

/-- The input ports of a cycle that runs an instruction. -/
def encodePorts (i : Instr) : PortSample :=
  ⟨false, controlWe (encode i).control, controlAddr (encode i).control, (encode i).wdata⟩

end Sys2Proof
end

