-- ==== Sys2Proof/Machine/Arith.lean ====
section
/-! DEFINITION. 32bit_adder_mod and word_rotate (40_arith_rotate.md). -/

namespace Sys2Proof.Machine

/-- Addition modulo 2^32: the exact sum, then the low 32 bits (40_arith_rotate.md R100). -/
def add32 (a b : Word) : Word := BitVec.ofNat 32 (a.toNat + b.toNat)

/-- Subtraction modulo 2^32: the exact difference, then the remainder in 0 to 2^32 - 1 (40_arith_rotate.md R101). -/
def sub32 (a b : Word) : Word := BitVec.ofInt 32 ((a.toNat : Int) - (b.toNat : Int))

/-- Left rotation by a fixed amount `n` of 0 to 31 (40_arith_rotate.md R103; the bit formula is general knowledge in the
spec itself, GK1: PRESUMED, log 13). For `n` above 32, which no rule uses, it answers `x` (DESIGN CHOICE, log 19). -/
def rotl (x : Word) (n : Nat) : Word := (x <<< n) ||| (x >>> (32 - n))

end Sys2Proof.Machine
end

