-- ==== Sys2Proof/Machine/State.lean ====
section
/-! DEFINITION. The machine's state as plain data, the reasons a step can stop, and the state after reset. -/

namespace Sys2Proof.Machine

/-- The state of round_controller_fsm (10_state.md R32). -/
inductive Mode where
  | idle
  | expand
  | encrypt
  | decrypt
deriving DecidableEq, Repr

/-- The block registers BLK0 to BLK4 under their aliases A to E (10_state.md R22, 00_scope.md R10). -/
structure Block where
  a : Word
  b : Word
  c : Word
  d : Word
  e : Word
deriving DecidableEq, Repr

/-- Everything the spec gives the block, and three fields of the model's own (`rdata`, `inputs`, `draws`: logs 2, 1, 7).
INVENTORY.md lists each with its width, rule and reset value. -/
structure State where
  /-- `ik[0..3]`, KEY0 to KEY3 (10_state.md R21). -/
  ik : Vector Word 4
  /-- `blk[0..4]`, BLK0 to BLK4 (10_state.md R22). -/
  blk : Block
  /-- `ek[0..79]`, EK0 to EK79 (10_state.md R23). -/
  ek : Vector Word 80
  /-- `mode`, STATUS.MODE (10_state.md R30, R32). -/
  mode : Mode
  /-- `ctr`, values 0 to 79 (10_state.md R32; log 12). -/
  ctr : Fin 80
  /-- `win[0..15]`, raw words, `win[15]` the newest (10_state.md R33). -/
  win : Vector Word 16
  /-- STATUS.KEYRDY (10_state.md R28). -/
  keyrdy : Bool
  /-- STATUS.DONE (10_state.md R27). -/
  done : Bool
  /-- STATUS.ERR (10_state.md R29). -/
  err : Bool
  /-- STATUS.ERRCODE (10_state.md R29, 60_exceptions.md R212). -/
  errcode : BitVec 4
  /-- IRQEN: bit 0 DONE_IE, bit 1 ERR_IE (10_state.md R31). -/
  irqen : BitVec 2
  /-- What the output port `rdata` showed in the last finished cycle (10_state.md R36, 20_memory.md R62; log 2). -/
  rdata : Word
  /-- What the host presents on the input ports in the coming cycles, the next one first (10_state.md R36; log 1). -/
  inputs : List PortSample
  /-- How many free values have been drawn (log 7). -/
  draws : Nat
deriving DecidableEq, Repr

/-- The block never stops with a fault: it has "no traps, no exception vectors" and records an error of a write in STATUS
(60_exceptions.md R210), so no constructor stands here and nothing raises one (safe). -/
inductive Fault where
deriving DecidableEq, Repr

/-- Why the model has no meaning for an instruction. -/
inductive Refusal where
  /-- Raised by an arm of `exec` whose instruction has no meaning yet. Safe: nothing is claimed. No arm raises it. -/
  | notModelled (mnemonic : String)
deriving DecidableEq, Repr

/-- Right after reset (10_state.md R37). The spec gives no value for `ek` and `win` (DESIGN CHOICE zero: logs 3, 4; an edge
with `rst = 1` in a run draws free values for them instead, `resetEdge`), nor for the model's own fields (logs 1, 2, 7). -/
def State.reset : State where
  ik := Vector.replicate 4 0#32
  blk := ⟨0#32, 0#32, 0#32, 0#32, 0#32⟩
  ek := Vector.replicate 80 0#32
  mode := .idle
  ctr := 0
  win := Vector.replicate 16 0#32
  keyrdy := false
  done := false
  err := false
  errcode := 0#4
  irqen := 0#2
  rdata := 0#32
  inputs := []
  draws := 0

end Sys2Proof.Machine
end

