-- ==== Sys2Proof/Machine/RoundFunctions.lean ====
section
/-! DEFINITION. round_function_array and the round steps (41_round_functions.md). -/

namespace Sys2Proof.Machine

/-- Choice (41_round_functions.md R120). -/
def f0 (b c d : Word) : Word := (b &&& c) ||| (~~~b &&& d)

/-- Parity (41_round_functions.md R121). -/
def f1 (b c d : Word) : Word := b ^^^ c ^^^ d

/-- Majority (41_round_functions.md R122). -/
def f2 (b c d : Word) : Word := (b &&& c) ||| (b &&& d) ||| (c &&& d)

/-- Parity again, an entry of its own (41_round_functions.md R123). -/
def f3 (b c d : Word) : Word := b ^^^ c ^^^ d

/-- The array's 2-bit select (41_round_functions.md R124, 30_encoding.md R87). -/
def rf (s : Fin 4) : Word → Word → Word → Word :=
  match s with
  | 0 => f0
  | 1 => f1
  | 2 => f2
  | 3 => f3

/-- `q(t) = t div 20`, the quartile of a round index (00_scope.md R9). -/
def quartile (t : Fin 80) : Fin 4 := ⟨t.val / 20, by omega⟩

/-- The select of encryption round `t` (30_encoding.md R87). -/
def encSelect (t : Fin 80) : Fin 4 := quartile t

/-- The select of decryption iteration `i`, `3 - (i div 20)` (30_encoding.md R87). -/
def decSelect (i : Fin 80) : Fin 4 := ⟨3 - i.val / 20, by omega⟩

/-- The forward round step (41_round_functions.md R126). -/
def fwdStep (s : Block) (f : Word → Word → Word → Word) : Block :=
  ⟨add32 (add32 (f s.b s.c s.d) s.e) (rotl s.a 5), s.a, rotl s.b 30, s.c, s.d⟩

/-- The inverse round step (41_round_functions.md R127). -/
def invStep (s : Block) (f : Word → Word → Word → Word) : Block :=
  ⟨s.b, rotl s.c 2, s.d, s.e, sub32 (sub32 s.a (f (rotl s.c 2) s.d s.e)) (rotl s.b 5)⟩

/-- Round-key mixing into word 0 (41_round_functions.md R128). -/
def keyAdd (s : Block) (k : Word) : Block := { s with a := add32 s.a k }

/-- Round-key mixing undone, the source's `key_add(block, -k)` (41_round_functions.md R128, 90_conflicts.md C4). -/
def keySub (s : Block) (k : Word) : Block := { s with a := sub32 s.a k }

/-- One encryption round with subkey `k` (41_round_functions.md R130). -/
def encRound (s : Block) (k : Word) (t : Fin 80) : Block := keyAdd (fwdStep s (rf (encSelect t))) k

/-- One decryption iteration with subkey `k` (41_round_functions.md R131). -/
def decRound (s : Block) (k : Word) (i : Fin 80) : Block := invStep (keySub s k) (rf (decSelect i))

end Sys2Proof.Machine
end

