-- ==== Sys2Proof/Machine/KeySchedule.lean ====
section
/-! DEFINITION. key_schedule_expander: the pure expansion and the expander's one-cycle datapath (42_key_schedule.md). -/

namespace Sys2Proof.Machine

/-- The hardwired round constants K0 to K3 (10_state.md R39, 42_key_schedule.md R142). -/
def roundConstant (q : Fin 4) : Word :=
  match q with
  | 0 => 0x5A827999#32
  | 1 => 0x6ED9EBA1#32
  | 2 => 0x8F1BBCDC#32
  | 3 => 0xCA62C1D6#32

/-- The key word that raw word `t` repeats, `ik[t mod 4]` (42_key_schedule.md R141). -/
def keyWord (ik : Vector Word 4) (t : Nat) : Word := ik[t % 4]'(Nat.mod_lt t (by decide))

/-- The recurrence's rotation and taps: the raw words at t-3, t-8, t-14, t-16 (42_key_schedule.md R141). -/
def recur (w3 w8 w14 w16 : Word) : Word := rotl (w3 ^^^ w8 ^^^ w14 ^^^ w16) 1

/-- The raw key-schedule words: the key repeated to 16 words, then the recurrence over raw words (42_key_schedule.md R141).
R141 stops at word 79; the model's function goes on by the same recurrence (DESIGN CHOICE, log 19). -/
def raw (ik : Vector Word 4) : Nat → Word
  | 0 => keyWord ik 0
  | 1 => keyWord ik 1
  | 2 => keyWord ik 2
  | 3 => keyWord ik 3
  | 4 => keyWord ik 4
  | 5 => keyWord ik 5
  | 6 => keyWord ik 6
  | 7 => keyWord ik 7
  | 8 => keyWord ik 8
  | 9 => keyWord ik 9
  | 10 => keyWord ik 10
  | 11 => keyWord ik 11
  | 12 => keyWord ik 12
  | 13 => keyWord ik 13
  | 14 => keyWord ik 14
  | 15 => keyWord ik 15
  | n + 16 => recur (raw ik (n + 13)) (raw ik (n + 8)) (raw ik (n + 2)) (raw ik n)

/-- The expanded key: each raw word plus its quartile's constant (42_key_schedule.md R142). -/
def expand (ik : Vector Word 4) : Vector Word 80 :=
  Vector.ofFn fun t : Fin 80 => add32 (raw ik t.val) (roundConstant (quartile t))

/-- The raw word `r` the expander makes in the cycle of key word `t`, from the key or from the window's taps
(42_key_schedule.md R144). -/
def expanderWord (ik : Vector Word 4) (win : Vector Word 16) (t : Fin 80) : Word :=
  if t.val < 16 then keyWord ik t.val else recur win[13] win[8] win[2] win[0]

/-- The window after one expander step: shifted down, the new raw word on top (42_key_schedule.md R144). -/
def shiftWindow (win : Vector Word 16) (r : Word) : Vector Word 16 :=
  Vector.ofFn fun j : Fin 16 => if h : j.val + 1 < 16 then win[j.val + 1] else r

end Sys2Proof.Machine
end

