-- ==== Sys2Proof/Machine/CipherEngine.lean ====
section
/-! DEFINITION. The block functions of CipherEngine (43_cipher_engine.md R160, R161). -/

namespace Sys2Proof.Machine

/-- The subkey index of decryption iteration `i`, `79 - i` (41_round_functions.md R131). -/
def decSubkeyIndex (i : Fin 80) : Fin 80 := ⟨79 - i.val, by omega⟩

/-- Rounds t = 0 to 79 in order (43_cipher_engine.md R160). -/
def encryptBlock (ek : Vector Word 80) (b : Block) : Block :=
  (List.finRange 80).foldl (fun s t => encRound s ek[t] t) b

/-- Iterations i = 0 to 79 in order, subkeys from the last to the first (43_cipher_engine.md R161). -/
def decryptBlock (ek : Vector Word 80) (b : Block) : Block :=
  (List.finRange 80).foldl (fun s i => decRound s ek[decSubkeyIndex i] i) b

end Sys2Proof.Machine
end

