-- ==== Sys2Proof/Machine/Flags.lean ====
section
/-! DEFINITION. STATUS and its fields, the error codes, the interrupt line. No arithmetic flag exists (10_state.md R35). -/

namespace Sys2Proof.Machine

/-- The errors a host write can raise (60_exceptions.md R212). -/
inductive ErrorCode where
  | illegalCmd
  | busy
  | noKey
deriving DecidableEq, Repr

/-- STATUS.ERRCODE of an error (60_exceptions.md R212). -/
def errorNumber : ErrorCode → BitVec 4
  | .illegalCmd => 1#4
  | .busy => 2#4
  | .noKey => 3#4

/-- STATUS.MODE as a 2-bit code (10_state.md R30). -/
def modeCode : Mode → BitVec 2
  | .idle => 0#2
  | .expand => 1#2
  | .encrypt => 2#2
  | .decrypt => 3#2

/-- The mode a command starts (30_encoding.md R82, 43_cipher_engine.md R164). -/
def modeOf : Command → Mode
  | .expand => .expand
  | .encrypt => .encrypt
  | .decrypt => .decrypt

/-- STATUS.BUSY, not stored (10_state.md R26). -/
def busy (s : State) : Bool := s.mode != .idle

/-- The read value of STATUS (10_state.md R25). -/
def statusWord (s : State) : Word :=
  BitVec.setWidth 32
    (modeCode s.mode ++ s.errcode ++ BitVec.ofBool s.err ++ BitVec.ofBool s.keyrdy ++ BitVec.ofBool s.done
      ++ BitVec.ofBool (busy s))

/-- STATUS write bit 1: clear DONE (10_state.md R25). -/
def clearsDone (v : Word) : Bool := v.getLsbD 1

/-- STATUS write bit 3: clear ERR and ERRCODE (10_state.md R25). -/
def clearsErr (v : Word) : Bool := v.getLsbD 3

/-- The level of `irq`, computed from the state with no storage (60_exceptions.md R220). -/
def irq (s : State) : Bool := (s.done && s.irqen.getLsbD 0) || (s.err && s.irqen.getLsbD 1)

end Sys2Proof.Machine
end

