-- ==== Sys2Proof/Machine/Operands.lean ====
section
/-! DEFINITION. Operand forms: the register slots an address selects, and the words of a block by number. -/

namespace Sys2Proof.Machine

/-- What a slot address selects (10_state.md R20, 30_encoding.md R85). -/
inductive Slot where
  | cmd
  | status
  | irqen
  | key (j : Fin 4)
  | blk (j : Fin 5)
  | ek (t : Fin 80)
  | reserved
deriving DecidableEq, Repr

/-- The address decode (10_state.md R20, 20_memory.md R61, 30_encoding.md R85). -/
def slotOf (a : SlotAddr) : Slot :=
  if a = 0x00#8 then .cmd
  else if a = 0x01#8 then .status
  else if a = 0x02#8 then .irqen
  else if h : 0x04 ≤ a.toNat ∧ a.toNat ≤ 0x07 then .key ⟨a.toNat - 0x04, by omega⟩
  else if h : 0x08 ≤ a.toNat ∧ a.toNat ≤ 0x0C then .blk ⟨a.toNat - 0x08, by omega⟩
  else if h : 0x80 ≤ a.toNat ∧ a.toNat ≤ 0xCF then .ek ⟨a.toNat - 0x80, by omega⟩
  else .reserved

/-- Word `j` of the block (10_state.md R22). -/
def blockWord (b : Block) (j : Fin 5) : Word :=
  match j with
  | 0 => b.a
  | 1 => b.b
  | 2 => b.c
  | 3 => b.d
  | 4 => b.e

/-- The block with word `j` replaced (10_state.md R22). -/
def setBlockWord (b : Block) (j : Fin 5) (v : Word) : Block :=
  match j with
  | 0 => { b with a := v }
  | 1 => { b with b := v }
  | 2 => { b with c := v }
  | 3 => { b with d := v }
  | 4 => { b with e := v }

end Sys2Proof.Machine
end

