-- ==== Sys2Proof/Machine/Ops.lean ====
section
/-! DEFINITION. The named operations: reading and writing slots, raising and clearing an error, the round controller's part
of an edge, the clock edge, reset, and what the host presents on the ports. -/

namespace Sys2Proof.Machine

/-- `MemRead(a, 4)`: what `rdata` shows for slot `a`, from the state before the edge, with the masks of R64
(20_memory.md R62, R64). -/
def memRead (s : State) (a : SlotAddr) : Word :=
  match slotOf a with
  | .cmd => 0#32
  | .status => statusWord s
  | .irqen => BitVec.setWidth 32 s.irqen
  | .key j => s.ik[j]
  | .blk j => if s.mode = .encrypt ∨ s.mode = .decrypt then 0#32 else blockWord s.blk j
  | .ek t => if s.keyrdy then s.ek[t] else 0#32
  | .reserved => 0#32

/-- `raise Error(c)`: the refused write's only effect, the first error since the last clear kept (60_exceptions.md R211). -/
def raiseError (c : ErrorCode) (s : State) : State :=
  { s with err := true, errcode := if s.err then s.errcode else errorNumber c }

/-- STATUS write with bit 3 set: the error record is cleared and nothing is replayed (10_state.md R29, 60_exceptions.md R219). -/
def clearError (s : State) : State := { s with err := false, errcode := 0#4 }

/-- STATUS write with bit 1 set (10_state.md R27). -/
def clearDone (s : State) : State := { s with done := false }

/-- The write rule of STATUS, never refused (10_state.md R25). -/
def writeStatus (v : Word) (s : State) : State :=
  let t := if clearsDone v then clearDone s else s
  if clearsErr v then clearError t else t

/-- The write rule of IRQEN, never refused (10_state.md R31). -/
def writeIrqen (v : Word) (s : State) : State := { s with irqen := v.extractLsb' 0 2 }

/-- A key write that is performed (10_state.md R21, R28). -/
def setKey (j : Fin 4) (v : Word) (s : State) : State := { s with ik := s.ik.set j v, keyrdy := false }

/-- A block write that is performed (10_state.md R22). -/
def setBlk (j : Fin 5) (v : Word) (s : State) : State := { s with blk := setBlockWord s.blk j v }

/-- The write rule of KEY0 to KEY3 (10_state.md R21, 60_exceptions.md R214). -/
def writeKey (j : Fin 4) (v : Word) (s : State) : State :=
  if s.mode = .idle then setKey j v s else raiseError .busy s

/-- The write rule of BLK0 to BLK4 (10_state.md R22, 60_exceptions.md R214). -/
def writeBlk (j : Fin 5) (v : Word) (s : State) : State :=
  if s.mode = .idle then setBlk j v s else raiseError .busy s

/-- Acceptance of a command (43_cipher_engine.md R164). -/
def accept (p : Command) (s : State) : State :=
  { s with mode := modeOf p, ctr := 0, done := false, keyrdy := if p = .expand then false else s.keyrdy }

/-- A legal command word at CMD: the checks BUSY and NO_KEY in their order, then acceptance (60_exceptions.md R213). -/
def writeCommand (p : Command) (s : State) : State :=
  if s.mode ≠ .idle then raiseError .busy s
  else if p ≠ .expand ∧ s.keyrdy = false then raiseError .noKey s
  else accept p s

/-- The write rule of CMD: ILLEGAL_CMD is checked first (60_exceptions.md R213, R215). -/
def writeCmd (v : Word) (s : State) : State :=
  match commandOf v with
  | none => raiseError .illegalCmd s
  | some p => writeCommand p s

/-- `MemWrite(a, 4, v)`: the host write's part of an edge (20_memory.md R63); EK and reserved slots ignore it
(10_state.md R23, 20_memory.md R61). -/
def memWrite (a : SlotAddr) (v : Word) (s : State) : State :=
  match slotOf a with
  | .cmd => writeCmd v s
  | .status => writeStatus v s
  | .irqen => writeIrqen v s
  | .key j => writeKey j v s
  | .blk j => writeBlk j v s
  | .ek _ => s
  | .reserved => s

/-- A free window (log 6): `win` outside EXPAND is unspecified (10_state.md R33). -/
@[irreducible]
def unspecifiedWindow (n : Nat) : Vector Word 16 := Vector.ofFn fun j : Fin 16 => Config.unspecifiedWord (n + j.val)

/-- A free subkey store (log 5): `ek` after a reset is unspecified (10_state.md R37, 92_eei_decisions.md D29). -/
@[irreducible]
def unspecifiedStore (n : Nat) : Vector Word 80 := Vector.ofFn fun t : Fin 80 => Config.unspecifiedWord (n + t.val)

/-- `win` left unspecified: sixteen free values are drawn. -/
def forgetWindow (s : State) : State := { s with win := unspecifiedWindow s.draws, draws := s.draws + 16 }

/-- The expander step of the state `pre` before the edge, written into `s` (42_key_schedule.md R144). -/
def expanderStep (pre s : State) : State :=
  let r := expanderWord pre.ik pre.win pre.ctr
  { s with
    win := shiftWindow pre.win r
    ek := pre.ek.set pre.ctr (add32 r (roundConstant (quartile pre.ctr))) }

/-- The encryption step of `pre`, written into `s` (43_cipher_engine.md R165). -/
def encryptStep (pre s : State) : State := { s with blk := encRound pre.blk pre.ek[pre.ctr] pre.ctr }

/-- The decryption step of `pre`, written into `s` (43_cipher_engine.md R166). -/
def decryptStep (pre s : State) : State := { s with blk := decRound pre.blk pre.ek[decSubkeyIndex pre.ctr] pre.ctr }

/-- Completion of a command (43_cipher_engine.md R167). -/
def complete (s : State) : State := { s with mode := .idle, ctr := 0, done := true }

/-- Completion of EXPAND: `keyrdy` is set too, and the window is no longer specified (43_cipher_engine.md R167,
10_state.md R33, log 6). -/
def completeExpand (s : State) : State := forgetWindow { complete s with keyrdy := true }

/-- The counter's move: on to the next step, or at step 79 the completion `fin` (43_cipher_engine.md R163). -/
def advance (pre : State) (fin : State → State) (s : State) : State :=
  if h : pre.ctr.val + 1 < 80 then { s with ctr := ⟨pre.ctr.val + 1, h⟩ } else fin s

/-- The round controller's part of the edge that follows `pre`, written into `s`, the state that holds the host write's
part of the same edge. It computes from `pre` alone (00_scope.md R10, 20_memory.md R63) and is written last, so that a set
of DONE beats a clear at the same edge (43_cipher_engine.md R163, 60_exceptions.md R221; log 14). -/
def fsmUpdate (pre s : State) : State :=
  match pre.mode with
  | .idle => s
  | .expand => advance pre completeExpand (expanderStep pre s)
  | .encrypt => advance pre complete (encryptStep pre s)
  | .decrypt => advance pre complete (decryptStep pre s)

/-- One rising edge with `rst = 0`: `written` is `s` with the host write's part, slot `a` is on the address port, and the
cycle's `rdata` shows slot `a` from the state before the edge (20_memory.md R62, R63, R74). -/
def clockEdge (a : SlotAddr) (s written : State) : State := { fsmUpdate s written with rdata := memRead s a }

/-- One rising edge with `rst = 1`: the values of 10_state.md R37, whatever else the ports carry; `ek` and `win` are free
(70_reset_and_hazards.md R240, R241; logs 5, 6); `rdata` showed the state before the edge. -/
def resetEdge (a : SlotAddr) (s : State) : State :=
  { State.reset with
    ek := unspecifiedStore s.draws
    win := unspecifiedWindow (s.draws + 80)
    draws := s.draws + 96
    rdata := memRead s a
    inputs := s.inputs }

/-- What the input ports carry when the host has nothing to do: a NOP cycle, `we = 0` (30_encoding.md R88; DESIGN CHOICE
for the address, log 1). -/
def idlePorts : PortSample := ⟨false, false, 0x00#8, 0#32⟩

/-- What the input ports carry in the coming cycle (10_state.md R36; log 1). -/
def presented (s : State) : PortSample := s.inputs.headD idlePorts

/-- The state with the coming cycle's input taken. -/
def takeInput (s : State) : State := { s with inputs := s.inputs.tail }

end Sys2Proof.Machine
end

