-- ==== Sys2Proof/Machine/Bus.lean ====
section
/-! DEFINITION. The meanings of the bus rows RD and WR (20_memory.md R62, R63). -/

namespace Sys2Proof.Machine

/-- RD: `rdata` shows slot `a`; no host write; the round controller goes on (20_memory.md R62). -/
def execRd (a : SlotAddr) (s : State) : Host.Outcome State Fault Refusal :=
  .next (clockEdge a s s)

/-- WR: slot `a` takes its write rule with `v` (20_memory.md R63); `rdata` shows the slot before the edge (R74). -/
def execWr (a : SlotAddr) (v : Word) (s : State) : Host.Outcome State Fault Refusal :=
  .next (clockEdge a s (memWrite a v s))

end Sys2Proof.Machine
end

