-- ==== Sys2Proof/Machine/Commands.lean ====
section
/-! DEFINITION. The meanings of the command rows EXPAND, ENCRYPT, DECRYPT: the bus cycle that writes the command word to
CMD (30_encoding.md R82, R89). The 80 steps of an accepted command are the round controller's part of the 80 edges that
follow, whatever instruction those cycles carry (43_cipher_engine.md R163). -/

namespace Sys2Proof.Machine

/-- EXPAND (42_key_schedule.md R143). -/
def execExpand (s : State) : Host.Outcome State Fault Refusal :=
  .next (clockEdge 0x00#8 s (writeCommand .expand s))

/-- ENCRYPT (43_cipher_engine.md R168). -/
def execEncrypt (s : State) : Host.Outcome State Fault Refusal :=
  .next (clockEdge 0x00#8 s (writeCommand .encrypt s))

/-- DECRYPT (43_cipher_engine.md R169). -/
def execDecrypt (s : State) : Host.Outcome State Fault Refusal :=
  .next (clockEdge 0x00#8 s (writeCommand .decrypt s))

end Sys2Proof.Machine
end

