-- ==== Sys2Proof/Machine/Step.lean ====
section
/-! DEFINITION. One step: one rising edge of `clk` (decision D2). -/

namespace Sys2Proof.Machine

/-- One clock cycle: the ports carry the next input; `rst = 1` wins over everything (70_reset_and_hazards.md R240);
otherwise the cycle's bus operation runs (30_encoding.md R86). -/
def step (s : State) : Host.Outcome State Fault Refusal :=
  if (presented s).rst then .next (resetEdge (presented s).addr (takeInput s))
  else exec (decodePorts (presented s)) (takeInput s)

/-- `s` with the instruction of number `w` presented in the coming cycle, in place of what stood there (log 1). -/
def State.withFetchWord (s : State) (nbits w : Nat) : State :=
  { s with inputs := tableWordPorts nbits w :: s.inputs.tail }

end Sys2Proof.Machine
end

