-- ==== Sys2Proof/Machine/Pipeline.lean ====
section
/-! DEFINITION. The host's file pipeline as pure functions on byte strings (44_host_pipeline.md). Host software, not
hardware (00_scope.md R5); the random source, the key store and the public-key backend are out of scope (R190, R202). -/

namespace Sys2Proof.Machine

/-- The one error the pipeline reports (44_host_pipeline.md R196). -/
inductive PipelineError where
  | invalidCiphertextLength
deriving DecidableEq, Repr

/-- Zero bytes up to the next multiple of 20, a whole block where the length already is one (44_host_pipeline.md R191). -/
def pad (bytes : List Byte) : List Byte := bytes ++ List.replicate (20 - bytes.length % 20) 0x00#8

/-- Four bytes as a word, the first in bits 31:24 (44_host_pipeline.md R192). -/
def wordOfBytes (b0 b1 b2 b3 : Byte) : Word := b0 ++ b1 ++ b2 ++ b3

/-- Big-endian words of a byte string whose length is a multiple of 4 (44_host_pipeline.md R192). DESIGN CHOICE (log 18),
unsafe: of any other string, which R192 does not speak of, the words of its whole groups of four; the 1 to 3 leftover bytes
are dropped. -/
def unpack : List Byte → List Word
  | b0 :: b1 :: b2 :: b3 :: rest => wordOfBytes b0 b1 b2 b3 :: unpack rest
  | [] => []
  | [_] => []
  | [_, _] => []
  | [_, _, _] => []

/-- The four bytes of a word, most significant first (44_host_pipeline.md R193). -/
def bytesOfWord (w : Word) : List Byte :=
  [w.extractLsb' 24 8, w.extractLsb' 16 8, w.extractLsb' 8 8, w.extractLsb' 0 8]

/-- Words back to bytes, in word order (44_host_pipeline.md R193). -/
def pack (words : List Word) : List Byte := words.flatMap bytesOfWord

/-- Consecutive groups of five words (44_host_pipeline.md R194). DESIGN CHOICE (log 18), unsafe: of a list whose length is no
multiple of 5, for which R194 gives no grouping, the whole groups; the 1 to 4 leftover words are dropped. -/
def blocksOf : List Word → List Block
  | a :: b :: c :: d :: e :: rest => ⟨a, b, c, d, e⟩ :: blocksOf rest
  | [] => []
  | [_] => []
  | [_, _] => []
  | [_, _, _] => []
  | [_, _, _, _] => []

/-- The five words of a block in order (44_host_pipeline.md R194). -/
def wordsOfBlock (b : Block) : List Word := [b.a, b.b, b.c, b.d, b.e]

/-- Each block of a byte string through one block function, in order, with no chaining (44_host_pipeline.md R195, R198).
Of a string whose length is no multiple of 20 the bytes after its last whole block are dropped (DESIGN CHOICE, log 18,
unsafe): `encryptBytes` pads first (R191) and `decryptBytes` refuses such a string (R196), so neither meets one. -/
def mapBlocks (f : Block → Block) (bytes : List Byte) : List Byte :=
  pack (((blocksOf (unpack bytes)).map f).flatMap wordsOfBlock)

/-- File encryption (44_host_pipeline.md R195). -/
def encryptBytes (bytes : List Byte) (ik : Vector Word 4) : List Byte :=
  mapBlocks (encryptBlock (expand ik)) (pad bytes)

/-- File decryption: no padding is added or stripped (44_host_pipeline.md R196). -/
def decryptBytes (bytes : List Byte) (ik : Vector Word 4) : Except PipelineError (List Byte) :=
  if bytes.length % 20 ≠ 0 then .error .invalidCiphertextLength
  else .ok (mapBlocks (decryptBlock (expand ik)) bytes)

end Sys2Proof.Machine
end

