-- ==== Sys2Proof/Machine/HostProgram.lean ====
section
/-! DEFINITION. The host's side of the bus: host lines and pseudo-instructions (30_encoding.md R88, R89), the byte-address
adapter (20_memory.md R66) and the driving of the block by the pipeline (44_host_pipeline.md R197). Host software, not
hardware. -/

namespace Sys2Proof.Machine

/-- The slot a byte-addressed bus reaches: byte-address bits 9:2, bits 1:0 dropped (20_memory.md R61, R66). -/
def slotOfByteAddress (b : BitVec 10) : SlotAddr := b.extractLsb' 2 8

/-- One line of host assembly, one cycle (30_encoding.md R88). -/
inductive HostLine where
  | wr (a : SlotAddr) (v : Word)
  | rd (a : SlotAddr)
  | nop
deriving DecidableEq, Repr

/-- The ports in a line's cycle (30_encoding.md R88). -/
def linePorts : HostLine → PortSample
  | .wr a v => ⟨false, true, a, v⟩
  | .rd a => ⟨false, false, a, 0#32⟩
  | .nop => idlePorts

/-- The pseudo-instructions that expand to a fixed list of lines (30_encoding.md R89); POLL is `poll`. -/
inductive Pseudo where
  | expand
  | encrypt
  | decrypt
  | clrdone
  | clrerr
  | loadkey (k0 k1 k2 k3 : Word)
  | loadblk (w0 w1 w2 w3 w4 : Word)
  | readblk
deriving DecidableEq, Repr

/-- The expansions of 30_encoding.md R89. -/
def expansion : Pseudo → List HostLine
  | .expand => [.wr 0x00#8 0x00000001#32]
  | .encrypt => [.wr 0x00#8 0x00000002#32]
  | .decrypt => [.wr 0x00#8 0x00000003#32]
  | .clrdone => [.wr 0x01#8 0x00000002#32]
  | .clrerr => [.wr 0x01#8 0x00000008#32]
  | .loadkey k0 k1 k2 k3 => [.wr 0x04#8 k0, .wr 0x05#8 k1, .wr 0x06#8 k2, .wr 0x07#8 k3]
  | .loadblk w0 w1 w2 w3 w4 => [.wr 0x08#8 w0, .wr 0x09#8 w1, .wr 0x0A#8 w2, .wr 0x0B#8 w3, .wr 0x0C#8 w4]
  | .readblk => [.rd 0x08#8, .rd 0x09#8, .rd 0x0A#8, .rd 0x0B#8, .rd 0x0C#8]

/-- One line presented in the coming cycle and run, before whatever else the host presents. -/
def runLine (l : HostLine) (s : State) : Option State :=
  match step { s with inputs := linePorts l :: s.inputs } with
  | .next t => some t
  | .fault _ => none
  | .refused _ => none

/-- Lines in order, each one's result collected (30_encoding.md R88). -/
def runLines : List HostLine → State → Option (List Word × State)
  | [], s => some ([], s)
  | l :: rest, s => do
    let t ← runLine l s
    let (results, u) ← runLines rest t
    return (t.rdata :: results, u)

/-- POLL: `RD STATUS` until its result has BUSY = 0 (30_encoding.md R89), at most `fuel` reads (DESIGN CHOICE, log 17). It
answers the last STATUS value and the state after it. -/
def poll : Nat → State → Option (Word × State)
  | 0, _ => none
  | fuel + 1, s => do
    let t ← runLine (.rd 0x01#8) s
    if t.rdata.getLsbD 0 then poll fuel t else return (t.rdata, t)

/-- A command started and waited for; none where STATUS.ERR is set afterwards (44_host_pipeline.md R197). -/
def runCommand (p : Pseudo) (fuel : Nat) (s : State) : Option State := do
  let (_, t) ← runLines (expansion p) s
  let (status, u) ← poll fuel t
  if status.getLsbD 3 then none else return u

/-- One block loaded, transformed and read back (44_host_pipeline.md R197). -/
def driveBlock (p : Pseudo) (fuel : Nat) (b : Block) (s : State) : Option (List Word × State) := do
  let (_, t) ← runLines (expansion (.loadblk b.a b.b b.c b.d b.e)) s
  let u ← runCommand p fuel t
  runLines (expansion .readblk) u

/-- Blocks in order, their result words concatenated (44_host_pipeline.md R197). -/
def driveBlocks (p : Pseudo) (fuel : Nat) : List Block → State → Option (List Word × State)
  | [], s => some ([], s)
  | b :: rest, s => do
    let (words, t) ← driveBlock p fuel b s
    let (more, u) ← driveBlocks p fuel rest t
    return (words ++ more, u)

/-- The key loaded and expanded once (44_host_pipeline.md R197). -/
def driveKey (ik : Vector Word 4) (fuel : Nat) (s : State) : Option State := do
  let (_, t) ← runLines (expansion (.loadkey ik[0] ik[1] ik[2] ik[3])) s
  runCommand .expand fuel t

/-- 44_host_pipeline.md R195 performed on the block as R197 says. -/
def driveEncryptBytes (bytes : List Byte) (ik : Vector Word 4) (fuel : Nat) (s : State) : Option (List Byte × State) := do
  let t ← driveKey ik fuel s
  let (words, u) ← driveBlocks .encrypt fuel (blocksOf (unpack (pad bytes))) t
  return (pack words, u)

/-- 44_host_pipeline.md R196 performed on the block as R197 says. -/
def driveDecryptBytes (bytes : List Byte) (ik : Vector Word 4) (fuel : Nat) (s : State) :
    Except PipelineError (Option (List Byte × State)) :=
  if bytes.length % 20 ≠ 0 then .error .invalidCiphertextLength
  else .ok do
    let t ← driveKey ik fuel s
    let (words, u) ← driveBlocks .decrypt fuel (blocksOf (unpack bytes)) t
    return (pack words, u)

end Sys2Proof.Machine
end

