-- ==== Sys2Proof/Safety.lean ====
section
/-! DEFINITION. What a good state is and what the host can see, in the terms the statements use. -/

namespace Sys2Proof.Machine

/-- "`ctr` is 0 whenever `mode = IDLE`" (10_state.md R32). -/
def CounterLegal (s : State) : Prop := s.mode = .idle → s.ctr = 0

/-- ERRCODE is NONE always with ERR = 0, a code 1 to 3 with ERR = 1, never a reserved code (60_exceptions.md R212). -/
def ErrorRecordLegal (s : State) : Prop :=
  (s.err = false → s.errcode = 0#4) ∧
  (s.err = true → s.errcode = 1#4 ∨ s.errcode = 2#4 ∨ s.errcode = 3#4)

/-- "`ek` is always the expansion of the current `ik` whenever `keyrdy = 1`" (70_reset_and_hazards.md R247); no EXPAND runs
then, and ENCRYPT and DECRYPT run only then. -/
def KeyStoreLegal (s : State) : Prop :=
  (s.keyrdy = true → s.ek = expand s.ik ∧ s.mode ≠ .expand) ∧
  (s.mode = .encrypt ∨ s.mode = .decrypt → s.keyrdy = true)

/-- The window invariant of 42_key_schedule.md R145: during EXPAND at key word `t`, `win[j] = raw[t - 16 + j]` wherever
`t - 16 + j >= 0`. -/
def WindowHolds (s : State) : Prop :=
  s.mode = .expand → ∀ j : Fin 16, 16 ≤ s.ctr.val + j.val → s.win[j] = raw s.ik (s.ctr.val + j.val - 16)

/-- During EXPAND at key word `t`, the entries below `t` are subkeys of the current key (42_key_schedule.md R143, R144). -/
def StoreFilled (s : State) : Prop :=
  s.mode = .expand → ∀ u : Fin 80, u.val < s.ctr.val → s.ek[u] = (expand s.ik)[u]

/-- The invariant of the block. -/
def Inv (s : State) : Prop :=
  CounterLegal s ∧ ErrorRecordLegal s ∧ KeyStoreLegal s ∧ WindowHolds s ∧ StoreFilled s

/-- `n` clock cycles of the host's machine, in the model's own types. -/
def cycles (n : Nat) (s : State) : Host.Outcome State Fault Refusal := Sys2Proof.core.run n s

/-- The host asserts no reset in the next `n` cycles. -/
def NoReset (n : Nat) (s : State) : Prop := ∀ p ∈ s.inputs.take n, p.rst = false

/-- Two states that a host cannot tell apart: equal but for `draws` and for the words of `ek` and `win` that the spec calls
unspecified (10_state.md R33, R37; 42_key_schedule.md R145; 93_implementation_defined.md). -/
structure SameToHost (s t : State) : Prop where
  ik : s.ik = t.ik
  blk : s.blk = t.blk
  mode : s.mode = t.mode
  ctr : s.ctr = t.ctr
  keyrdy : s.keyrdy = t.keyrdy
  done : s.done = t.done
  err : s.err = t.err
  errcode : s.errcode = t.errcode
  irqen : s.irqen = t.irqen
  rdata : s.rdata = t.rdata
  inputs : s.inputs = t.inputs
  store : s.keyrdy = true ∨ s.mode = .encrypt ∨ s.mode = .decrypt → s.ek = t.ek
  filled : s.mode = .expand → ∀ u : Fin 80, u.val < s.ctr.val → s.ek[u] = t.ek[u]
  window : s.mode = .expand → ∀ j : Fin 16, 16 ≤ s.ctr.val + j.val → s.win[j] = t.win[j]

end Sys2Proof.Machine
end

