-- ==== Sys2Proof/Certificates/Slice0/Obligations.lean ====
section
/-! DEFINITION. The statements for the provers. -/

open Sys2Proof Sys2Proof.Machine

/-! ### Encoding and the step -/

/-- 30_encoding.md R85: the decoder reads back every well-formed instruction from its bus words. Which legal CMD write is
spelled as which constructor is the model's choice (log 8). -/
def Obligations.DecodeEncodeRoundTrip : Prop :=
  ∀ i : Instr, WellFormed i = true → decode (encode i) = i

/-- 30_encoding.md R86: every control word and data word decodes to one instruction, a well-formed one (log 8), and only the
`wdata` of a read is dropped (R85, "wdata ignored"). -/
def Obligations.EncodeDecodeRoundTrip : Prop :=
  ∀ b : BusWords, WellFormed (decode b) = true ∧
    (controlWe b.control = true → encode (decode b) = b) ∧
    (controlWe b.control = false → encode (decode b) = ⟨b.control, 0x00000000#32⟩)

/-- 30_encoding.md R81: legal exactly when RSVD = 0 and OPC is 0x1, 0x2 or 0x3; so exactly the three words. -/
def Obligations.CommandWordsExactlyThree : Prop :=
  ∀ v : Word,
    (commandOf v = some .expand ↔ v = 0x00000001#32) ∧
    (commandOf v = some .encrypt ↔ v = 0x00000002#32) ∧
    (commandOf v = some .decrypt ↔ v = 0x00000003#32) ∧
    ((commandOf v).isSome = true ↔
      v.extractLsb' 4 28 = 0#28 ∧
        (v.extractLsb' 0 4 = 0x1#4 ∨ v.extractLsb' 0 4 = 0x2#4 ∨ v.extractLsb' 0 4 = 0x3#4))

/-- 95_test_vectors.md V2.7: control words written out by the spec decode to the operations they stand for. That a legal
CMD write is spelled as the command's own constructor is the model's choice (log 8). -/
def Obligations.SpecWordsDecode : Prop :=
  decode ⟨0x001#9, 0#32⟩ = .rd 0x01#8 ∧
  decode ⟨0x0CF#9, 0#32⟩ = .rd 0xCF#8 ∧
  decode ⟨0x107#9, 0x76543210#32⟩ = .wr 0x07#8 0x76543210#32 ∧
  decode ⟨0x10C#9, 0xC3D2E1F0#32⟩ = .wr 0x0C#8 0xC3D2E1F0#32 ∧
  decode ⟨0x100#9, 0x00000001#32⟩ = .expand ∧
  decode ⟨0x100#9, 0x00000002#32⟩ = .encrypt ∧
  decode ⟨0x100#9, 0x00000003#32⟩ = .decrypt ∧
  decode ⟨0x100#9, 0x00000012#32⟩ = .wr 0x00#8 0x00000012#32

/-- In a cycle with `rst = 0` the step takes that cycle's input and runs exactly the instruction its ports carry
(30_encoding.md R80, R86). That the host's cycles stand in the field `inputs` is the model's choice (log 1). -/
def Obligations.StepRunsDecodedInstruction : Prop :=
  ∀ (s : State) (i : Instr), (presented s).rst = false → decodePorts (presented s) = i →
    WellFormed i = true ∧ step s = exec i { s with inputs := s.inputs.tail }

/-- 60_exceptions.md R210: no fault stops the block; with 30_encoding.md R86, every instruction has its next state, and so
has every step. -/
def Obligations.EveryInstructionAnswersNext : Prop :=
  (∀ (i : Instr) (s : State), ∃ t, exec i s = .next t) ∧ (∀ s : State, ∃ t, step s = .next t)

/-! ### Reset -/

/-- 10_state.md R37: the values it gives for reset; EK reads 0 there. -/
def Obligations.ResetStateValues : Prop :=
  (∀ j : Fin 4, State.reset.ik[j] = 0x00000000#32) ∧
  State.reset.blk = ⟨0#32, 0#32, 0#32, 0#32, 0#32⟩ ∧
  State.reset.mode = .idle ∧ State.reset.ctr = 0 ∧ State.reset.keyrdy = false ∧ State.reset.done = false ∧
  State.reset.err = false ∧ State.reset.errcode = 0#4 ∧ State.reset.irqen = 0#2 ∧
  statusWord State.reset = 0x00000000#32 ∧ irq State.reset = false ∧
  (∀ t : Fin 80, memRead State.reset (BitVec.ofNat 8 (0x80 + t.val)) = 0x00000000#32)

/-- 70_reset_and_hazards.md R240: one edge with `rst = 1`, from any state and whatever the other ports carry. That the host's
cycles stand in `inputs` and the port level in `rdata` is the model's choice (logs 1, 2). -/
def Obligations.ResetEdgeFromAnyState : Prop :=
  ∀ s : State, (presented s).rst = true →
    ∃ t, step s = .next t ∧
      (∀ j : Fin 4, t.ik[j] = 0x00000000#32) ∧ t.blk = ⟨0#32, 0#32, 0#32, 0#32, 0#32⟩ ∧
      t.mode = .idle ∧ t.ctr = 0 ∧ t.keyrdy = false ∧ t.done = false ∧ t.err = false ∧ t.errcode = 0#4 ∧
      t.irqen = 0#2 ∧ statusWord t = 0x00000000#32 ∧ irq t = false ∧
      (∀ u : Fin 80, memRead t (BitVec.ofNat 8 (0x80 + u.val)) = 0x00000000#32) ∧
      t.rdata = memRead s (presented s).addr ∧ t.inputs = s.inputs.tail

/-! ### Commands: acceptance and refusal -/

/-- 43_cipher_engine.md R164: the edge of an accepted command, with its frame: no state of the block but the named changes.
`r` is what the port `rdata` showed in the cycle (log 2). -/
def Obligations.AcceptedCommandsStart : Prop :=
  (∀ s : State, s.mode = .idle → ∃ r : Word,
    exec .expand s = .next { s with mode := .expand, ctr := 0, done := false, keyrdy := false, rdata := r }) ∧
  (∀ s : State, s.mode = .idle → s.keyrdy = true → ∃ r : Word,
    exec .encrypt s = .next { s with mode := .encrypt, ctr := 0, done := false, rdata := r }) ∧
  (∀ s : State, s.mode = .idle → s.keyrdy = true → ∃ r : Word,
    exec .decrypt s = .next { s with mode := .decrypt, ctr := 0, done := false, rdata := r })

/-- 30_encoding.md R89: a legal command word written to CMD and the command are one operation, in every state. That the two
spellings are two constructors is the model's choice (log 8). -/
def Obligations.LegalCmdWriteIsItsCommand : Prop :=
  ∀ s : State,
    exec (.wr 0x00#8 0x00000001#32) s = exec .expand s ∧
    exec (.wr 0x00#8 0x00000002#32) s = exec .encrypt s ∧
    exec (.wr 0x00#8 0x00000003#32) s = exec .decrypt s

/-- 60_exceptions.md R213: the checks on a CMD write in their order and what follows, beside a read of the same slot in the
same cycle: a refusal leaves what the read would leave but for the error record, an acceptance starts the command
(43_cipher_engine.md R164). -/
def Obligations.CmdWriteChecksInOrder : Prop :=
  ∀ (v : Word) (s : State), ∃ t, exec (.rd 0x00#8) s = .next t ∧
    exec (.wr 0x00#8 v) s = .next (
      if v.extractLsb' 4 28 ≠ 0#28 ∨
          ¬(v.extractLsb' 0 4 = 0x1#4 ∨ v.extractLsb' 0 4 = 0x2#4 ∨ v.extractLsb' 0 4 = 0x3#4) then
        { t with err := true, errcode := if s.err then s.errcode else 1#4 }
      else if s.mode ≠ .idle then
        { t with err := true, errcode := if s.err then s.errcode else 2#4 }
      else if (v.extractLsb' 0 4 = 0x2#4 ∨ v.extractLsb' 0 4 = 0x3#4) ∧ s.keyrdy = false then
        { t with err := true, errcode := if s.err then s.errcode else 3#4 }
      else
        { t with
          mode := if v.extractLsb' 0 4 = 0x1#4 then .expand
            else if v.extractLsb' 0 4 = 0x2#4 then .encrypt else .decrypt
          ctr := 0
          done := false
          keyrdy := if v.extractLsb' 0 4 = 0x1#4 then false else s.keyrdy })

/-- 60_exceptions.md R215: in every state an illegal word does what a read of CMD does in that cycle but for the error record;
in IDLE it changes only that record, and STATUS reads 0x18 when nothing else is set. `r` is what the port `rdata` showed. -/
def Obligations.IllegalCommandRefused : Prop :=
  ∀ (v : Word) (s : State), v ≠ 0x00000001#32 → v ≠ 0x00000002#32 → v ≠ 0x00000003#32 →
    (∃ t, exec (.rd 0x00#8) s = .next t ∧
      exec (.wr 0x00#8 v) s = .next { t with err := true, errcode := if s.err then s.errcode else 1#4 }) ∧
    (s.mode = .idle → ∃ r : Word,
      exec (.wr 0x00#8 v) s = .next { s with err := true, errcode := if s.err then s.errcode else 1#4, rdata := r }) ∧
    (s.mode = .idle → s.keyrdy = false → s.done = false → s.err = false →
      ∃ t, exec (.wr 0x00#8 v) s = .next t ∧ statusWord t = 0x00000018#32)

/-- 60_exceptions.md R216: while a command runs, a legal CMD write and every KEY and BLK write is refused with BUSY; the edge
is otherwise that of a read of the same slot, so the running command goes on undisturbed and the value is lost. -/
def Obligations.BusyWritesRefused : Prop :=
  ∀ s : State, s.mode ≠ .idle →
    (∀ (a : SlotAddr) (v : Word),
      (a = 0x00#8 ∧ (v = 0x00000001#32 ∨ v = 0x00000002#32 ∨ v = 0x00000003#32)) ∨
        (0x04 ≤ a.toNat ∧ a.toNat ≤ 0x0C) →
      ∃ t, exec (.rd a) s = .next t ∧
        exec (.wr a v) s = .next { t with err := true, errcode := if s.err then s.errcode else 2#4 }) ∧
    (∃ t, exec (.rd 0x00#8) s = .next t ∧
      exec .expand s = .next { t with err := true, errcode := if s.err then s.errcode else 2#4 } ∧
      exec .encrypt s = .next { t with err := true, errcode := if s.err then s.errcode else 2#4 } ∧
      exec .decrypt s = .next { t with err := true, errcode := if s.err then s.errcode else 2#4 })

/-- 60_exceptions.md R217: ENCRYPT and DECRYPT in IDLE without an expanded key change only the error record. `r` is what the
port `rdata` showed in the cycle (log 2). -/
def Obligations.NoKeyRefused : Prop :=
  ∀ s : State, s.mode = .idle → s.keyrdy = false →
    (∃ r : Word,
      exec .encrypt s = .next { s with err := true, errcode := if s.err then s.errcode else 3#4, rdata := r }) ∧
    (∃ r : Word,
      exec .decrypt s = .next { s with err := true, errcode := if s.err then s.errcode else 3#4, rdata := r })

/-- 60_exceptions.md R211, R222: the first error since the last clear is kept; only a STATUS write with bit 3 clears it. -/
def Obligations.FirstErrorKept : Prop :=
  ∀ (i : Instr) (s : State), s.err = true → (∀ v : Word, i = .wr 0x01#8 v → v.getLsbD 3 = false) →
    ∃ t, exec i s = .next t ∧ t.err = true ∧ t.errcode = s.errcode

/-! ### Reads -/

/-- 20_memory.md R62: the value of every slot, shown by the cycle that reads it (the field `rdata`: the model's choice, log 2),
with no error raised. -/
def Obligations.ReadValuePerSlot : Prop :=
  ∀ s : State,
    memRead s 0x00#8 = 0x00000000#32 ∧
    memRead s 0x01#8 = statusWord s ∧
    memRead s 0x02#8 = BitVec.setWidth 32 s.irqen ∧
    (∀ j : Fin 4, memRead s (BitVec.ofNat 8 (0x04 + j.val)) = s.ik[j]) ∧
    (∀ j : Fin 5, memRead s (BitVec.ofNat 8 (0x08 + j.val)) =
      if s.mode = .encrypt ∨ s.mode = .decrypt then 0x00000000#32
      else [s.blk.a, s.blk.b, s.blk.c, s.blk.d, s.blk.e][j]) ∧
    (∀ t : Fin 80, memRead s (BitVec.ofNat 8 (0x80 + t.val)) = if s.keyrdy then s.ek[t] else 0x00000000#32) ∧
    (∀ a : SlotAddr, a = 0x03#8 ∨ (0x0D ≤ a.toNat ∧ a.toNat ≤ 0x7F) ∨ 0xD0 ≤ a.toNat →
      memRead s a = 0x00000000#32) ∧
    (∀ a : SlotAddr, ∃ t, exec (.rd a) s = .next t ∧ t.rdata = memRead s a ∧
      t.err = s.err ∧ t.errcode = s.errcode ∧ t.irqen = s.irqen ∧ t.ik = s.ik ∧ t.inputs = s.inputs)

/-- 20_memory.md R64: the masks, and that KEY0 to KEY3 are never masked. -/
def Obligations.MaskedReads : Prop :=
  (∀ (s : State) (j : Fin 5), s.mode = .encrypt ∨ s.mode = .decrypt →
    memRead s (BitVec.ofNat 8 (0x08 + j.val)) = 0x00000000#32) ∧
  (∀ (s : State) (t : Fin 80), s.keyrdy = false → memRead s (BitVec.ofNat 8 (0x80 + t.val)) = 0x00000000#32) ∧
  (∀ (s : State) (j : Fin 4), memRead s (BitVec.ofNat 8 (0x04 + j.val)) = s.ik[j])

/-- 10_state.md R25, R26, R30: each field of the STATUS read value, and that a running mode's code is its opcode. -/
def Obligations.StatusReadValue : Prop :=
  (∀ s : State,
    ((statusWord s).getLsbD 0 = true ↔ s.mode = .expand ∨ s.mode = .encrypt ∨ s.mode = .decrypt) ∧
    (statusWord s).getLsbD 1 = s.done ∧
    (statusWord s).getLsbD 2 = s.keyrdy ∧
    (statusWord s).getLsbD 3 = s.err ∧
    (statusWord s).extractLsb' 4 4 = s.errcode ∧
    (statusWord s).extractLsb' 8 2 = modeCode s.mode ∧
    (statusWord s).extractLsb' 10 22 = 0#22) ∧
  modeCode .idle = 0#2 ∧
  (∀ p : Command, BitVec.setWidth 4 (modeCode (modeOf p)) = p.word.extractLsb' 0 4)

/-- 20_memory.md R62, 60_exceptions.md R225: in IDLE a read changes nothing but what `rdata` showed (log 2). -/
def Obligations.ReadInIdleChangesNothing : Prop :=
  ∀ (a : SlotAddr) (s : State), s.mode = .idle → exec (.rd a) s = .next { s with rdata := memRead s a }

/-- 20_memory.md R68: no read has a side effect, so which slot a cycle reads changes nothing but what `rdata` showed (log 2),
also while a command runs. -/
def Obligations.ReadAddressHasNoSideEffect : Prop :=
  ∀ (a b : SlotAddr) (s : State), ∃ t, exec (.rd a) s = .next t ∧
    exec (.rd b) s = .next { t with rdata := memRead s b }

/-! ### Writes -/

/-- 10_state.md R21, R28: a key write in IDLE, with its frame; `keyrdy` is cleared whatever the value written. `rdata` shows
the value before the edge (20_memory.md R74; the field is the model's choice, log 2). -/
def Obligations.KeyWriteInIdle : Prop :=
  ∀ (j : Fin 4) (v : Word) (s : State), s.mode = .idle →
    exec (.wr (BitVec.ofNat 8 (0x04 + j.val)) v) s =
      .next { s with ik := s.ik.set j v, keyrdy := false, rdata := s.ik[j] }

/-- 10_state.md R22: a block write in IDLE, word by word, with its frame. `rdata` shows the value before the edge
(20_memory.md R74; the field is the model's choice, log 2). -/
def Obligations.BlkWriteInIdle : Prop :=
  ∀ (v : Word) (s : State), s.mode = .idle →
    exec (.wr 0x08#8 v) s = .next { s with blk := { s.blk with a := v }, rdata := s.blk.a } ∧
    exec (.wr 0x09#8 v) s = .next { s with blk := { s.blk with b := v }, rdata := s.blk.b } ∧
    exec (.wr 0x0A#8 v) s = .next { s with blk := { s.blk with c := v }, rdata := s.blk.c } ∧
    exec (.wr 0x0B#8 v) s = .next { s with blk := { s.blk with d := v }, rdata := s.blk.d } ∧
    exec (.wr 0x0C#8 v) s = .next { s with blk := { s.blk with e := v }, rdata := s.blk.e }

/-- 10_state.md R25, R27, 60_exceptions.md R221: a STATUS write in every state, beside a read of STATUS in the same cycle;
a completion at the same edge sets DONE and wins. -/
def Obligations.StatusWriteClears : Prop :=
  ∀ (v : Word) (s : State), ∃ t, exec (.rd 0x01#8) s = .next t ∧
    exec (.wr 0x01#8 v) s = .next { t with
      done := if s.mode ≠ .idle ∧ s.ctr.val = 79 then true else s.done && !v.getLsbD 1
      err := s.err && !v.getLsbD 3
      errcode := if v.getLsbD 3 then 0#4 else s.errcode }

/-- 10_state.md R31: an IRQEN write in every state, beside a read of IRQEN in the same cycle. -/
def Obligations.IrqenWriteSetsEnables : Prop :=
  ∀ (v : Word) (s : State), ∃ t, exec (.rd 0x02#8) s = .next t ∧ t.rdata = BitVec.setWidth 32 s.irqen ∧
    exec (.wr 0x02#8 v) s = .next { t with irqen := v.extractLsb' 0 2 }

/-- 20_memory.md R61, 10_state.md R23: a write to a reserved or EK slot does in every state what a read of it does. -/
def Obligations.ReadOnlyAndReservedWritesIgnored : Prop :=
  ∀ (a : SlotAddr) (v : Word) (s : State), a = 0x03#8 ∨ 0x0D ≤ a.toNat →
    ∃ t, exec (.rd a) s = .next t ∧ exec (.wr a v) s = .next t

/-! ### What changes, whatever the cycle's instruction -/

/-- 10_state.md R27: when DONE is set, cleared and kept. -/
def Obligations.DoneChangesOnlyAsStated : Prop :=
  ∀ (i : Instr) (s : State), ∃ t, exec i s = .next t ∧
    (s.mode ≠ .idle → s.ctr.val = 79 → t.done = true) ∧
    (s.mode = .idle → t.mode ≠ .idle → t.done = false) ∧
    (s.mode = .idle ∨ s.ctr.val ≠ 79 → ∀ v : Word, i = .wr 0x01#8 v → v.getLsbD 1 = true → t.done = false) ∧
    (s.mode = .idle ∨ s.ctr.val ≠ 79 → t.mode = s.mode → (∀ v : Word, i = .wr 0x01#8 v → v.getLsbD 1 = false) →
      t.done = s.done)

/-- 10_state.md R28: when KEYRDY is set, cleared and kept (reset apart). -/
def Obligations.KeyReadyChangesOnlyAsStated : Prop :=
  ∀ (i : Instr) (s : State), ∃ t, exec i s = .next t ∧
    (s.mode = .expand → s.ctr.val = 79 → t.keyrdy = true) ∧
    (s.mode = .idle → t.mode = .expand → t.keyrdy = false) ∧
    (s.mode = .idle → ∀ (a : SlotAddr) (v : Word), i = .wr a v → 0x04 ≤ a.toNat → a.toNat ≤ 0x07 →
      t.keyrdy = false) ∧
    (¬(s.mode = .expand ∧ s.ctr.val = 79) → ¬(s.mode = .idle ∧ t.mode = .expand) →
      (∀ (a : SlotAddr) (v : Word), i = .wr a v → 0x04 ≤ a.toNat → a.toNat ≤ 0x07 → s.mode ≠ .idle) →
      t.keyrdy = s.keyrdy)

/-- 10_state.md R21, R22: which instructions leave `ik` and `blk` unchanged, in every mode. -/
def Obligations.KeyAndBlockFrames : Prop :=
  ∀ (i : Instr) (s : State), ∃ t, exec i s = .next t ∧
    (s.mode ≠ .idle ∨ (∀ (a : SlotAddr) (v : Word), i = .wr a v → a.toNat < 0x04 ∨ 0x07 < a.toNat) → t.ik = s.ik) ∧
    (s.mode = .expand ∨
        (s.mode = .idle ∧ ∀ (a : SlotAddr) (v : Word), i = .wr a v → a.toNat < 0x08 ∨ 0x0C < a.toNat) →
      t.blk = s.blk)

/-- 43_cipher_engine.md R172: no cycle of ENCRYPT or DECRYPT, whatever the host does in it, writes the subkey store. -/
def Obligations.SubkeysReadOnlyWhileCiphering : Prop :=
  ∀ (i : Instr) (s : State), s.mode = .encrypt ∨ s.mode = .decrypt → ∃ t, exec i s = .next t ∧ t.ek = s.ek

/-- 10_state.md R23: outside EXPAND no instruction changes the subkey store or the window. For the window it is the model's
choice to keep it there, where the spec calls it unspecified (10_state.md R33, log 6). -/
def Obligations.StoreKeptOutsideExpand : Prop :=
  ∀ (i : Instr) (s : State), s.mode ≠ .expand → ∃ t, exec i s = .next t ∧ t.ek = s.ek ∧ t.win = s.win

/-- 43_cipher_engine.md R163, R167: whatever the host does in the cycle, a running command advances, and completes at step
79. -/
def Obligations.RunningCommandAdvances : Prop :=
  ∀ (i : Instr) (s : State), s.mode ≠ .idle → ∃ t, exec i s = .next t ∧
    (s.ctr.val < 79 → t.mode = s.mode ∧ t.ctr.val = s.ctr.val + 1) ∧
    (s.ctr.val = 79 → t.mode = .idle ∧ t.ctr = 0 ∧ t.done = true ∧ (s.mode = .expand → t.keyrdy = true))

/-- 43_cipher_engine.md R165: one encryption round an edge, whatever the host does in the cycle, and what stays. -/
def Obligations.EncryptStepPerEdge : Prop :=
  ∀ (i : Instr) (s : State), s.mode = .encrypt → ∃ t, exec i s = .next t ∧
    t.blk = encRound s.blk s.ek[s.ctr] s.ctr ∧
    t.ik = s.ik ∧ t.ek = s.ek ∧ t.keyrdy = s.keyrdy ∧ t.inputs = s.inputs

/-- 43_cipher_engine.md R166: one decryption iteration an edge, whatever the host does in the cycle, and what stays. -/
def Obligations.DecryptStepPerEdge : Prop :=
  ∀ (i : Instr) (s : State), s.mode = .decrypt → ∃ t, exec i s = .next t ∧
    t.blk = decRound s.blk (s.ek[79 - s.ctr.val]'(by omega)) s.ctr ∧
    t.ik = s.ik ∧ t.ek = s.ek ∧ t.keyrdy = s.keyrdy ∧ t.inputs = s.inputs

/-- 42_key_schedule.md R144: one key word an edge, whatever the host does in the cycle, and what stays. The window after the
last step is left out: it is unspecified outside EXPAND (10_state.md R33) and the model leaves it free (log 6). -/
def Obligations.ExpanderStepPerEdge : Prop :=
  ∀ (i : Instr) (s : State), s.mode = .expand → ∃ (t : State) (r : Word), exec i s = .next t ∧
    r = (if s.ctr.val < 16 then s.ik[s.ctr.val % 4]'(Nat.mod_lt _ (by decide))
      else rotl (s.win[13] ^^^ s.win[8] ^^^ s.win[2] ^^^ s.win[0]) 1) ∧
    t.ek[s.ctr] = add32 r (roundConstant (quartile s.ctr)) ∧
    (∀ u : Fin 80, u ≠ s.ctr → t.ek[u] = s.ek[u]) ∧
    (s.ctr.val < 79 → t.win[15] = r ∧ ∀ j : Fin 15, t.win[j.val]'(by omega) = s.win[j.val + 1]'(by omega)) ∧
    t.ik = s.ik ∧ t.blk = s.blk ∧ t.inputs = s.inputs

/-- 60_exceptions.md R220: the level of `irq`, and how a refused write raises it and a STATUS write lowers it. -/
def Obligations.IrqFollowsStatus : Prop :=
  (∀ s : State, irq s = true ↔
    (s.done = true ∧ s.irqen.getLsbD 0 = true) ∨ (s.err = true ∧ s.irqen.getLsbD 1 = true)) ∧
  (∀ s : State, s.mode = .idle → s.irqen.getLsbD 1 = true →
    ∃ t, exec (.wr 0x00#8 0x00000000#32) s = .next t ∧ irq t = true) ∧
  (∀ s : State, s.mode = .idle → ∃ t, exec (.wr 0x01#8 0x0000000A#32) s = .next t ∧ irq t = false)

/-! ### The datapath -/

/-- 40_arith_rotate.md R100, R101. The last two clauses are the spec's own inferences: "derived: two's-complement identity" and
"derived: from rules R100 and R101". -/
def Obligations.AdderIsModulo : Prop :=
  ∀ a b : Word,
    (add32 a b).toNat = (a.toNat + b.toNat) % 2 ^ 32 ∧
    ((sub32 a b).toNat : Int) = ((a.toNat : Int) - (b.toNat : Int)) % 2 ^ 32 ∧
    sub32 a b = add32 a (add32 (~~~b) 1#32) ∧
    sub32 (add32 a b) b = a

/-- 40_arith_rotate.md R103: the bit formula. The spec takes the formula "from general knowledge, not in source" (log 13). -/
def Obligations.RotationBitFormula : Prop :=
  ∀ x : Word,
    (∀ n i : Nat, n < 32 → i < 32 → (rotl x n).getLsbD i = x.getLsbD ((i + 32 - n) % 32)) ∧ rotl x 0 = x

/-- 40_arith_rotate.md R104: rotations by 30 and by 2 undo each other, an inference the spec marks "derived: from rule R103,
since 30 + 2 = 32". -/
def Obligations.RotationsBy30And2Inverse : Prop :=
  ∀ x : Word, rotl (rotl x 30) 2 = x ∧ rotl (rotl x 2) 30 = x

/-- 41_round_functions.md R125: the truth table, bit by bit, which the spec marks "derived: from rules R120 to R123". -/
def Obligations.RoundFunctionTruthTable : Prop :=
  ∀ (b c d : Word) (i : Nat), i < 32 →
    (f0 b c d).getLsbD i = (if b.getLsbD i then c.getLsbD i else d.getLsbD i) ∧
    (f1 b c d).getLsbD i = (b.getLsbD i != (c.getLsbD i != d.getLsbD i)) ∧
    (f2 b c d).getLsbD i = (if b.getLsbD i then c.getLsbD i || d.getLsbD i else c.getLsbD i && d.getLsbD i) ∧
    (f3 b c d).getLsbD i = (f1 b c d).getLsbD i

/-- 41_round_functions.md R129: the forward and inverse round steps undo each other for every state and round function, an
inference the spec marks as its own: "it is a consequence of rules R126 and R127, not an extra assumption". -/
def Obligations.RoundStepsAreInverses : Prop :=
  ∀ (s : Block) (q : Fin 4), invStep (fwdStep s (rf q)) (rf q) = s ∧ fwdStep (invStep s (rf q)) (rf q) = s

/-- 41_round_functions.md R131: iteration `79 - t` of decryption undoes round `t` of encryption with the same subkey, an
inference the spec marks "derived: 3 - ((79 - t) div 20) = t div 20". -/
def Obligations.DecRoundUndoesEncRound : Prop :=
  ∀ (s : Block) (k : Word) (t i : Fin 80), i.val = 79 - t.val →
    decRound (encRound s k t) k i = s ∧ encRound (decRound s k i) k t = s

/-- 43_cipher_engine.md R162: decryption undoes encryption, and encryption decryption, for every 80-word store; for stores that
are no expansion, and with the roles swapped, the spec marks it "derived: iteration i of rule R161 undoes round t = 79 - i". -/
def Obligations.DecryptUndoesEncrypt : Prop :=
  ∀ (ek : Vector Word 80) (b : Block),
    decryptBlock ek (encryptBlock ek b) = b ∧ encryptBlock ek (decryptBlock ek b) = b

/-- 42_key_schedule.md R141: the raw words. That the recurrence goes on past word 79, where R141 stops, is the model's choice
(log 19). -/
def Obligations.RawWordRecurrence : Prop :=
  ∀ (ik : Vector Word 4) (t : Nat),
    (t ≤ 15 → raw ik t = ik[t % 4]'(Nat.mod_lt _ (by decide))) ∧
    (16 ≤ t → raw ik t = rotl (raw ik (t - 3) ^^^ raw ik (t - 8) ^^^ raw ik (t - 14) ^^^ raw ik (t - 16)) 1)

/-- 42_key_schedule.md R142: the subkeys, quartile by quartile. -/
def Obligations.SubkeyPerQuartile : Prop :=
  ∀ (ik : Vector Word 4) (t : Fin 80),
    (t.val < 20 → (expand ik)[t] = add32 (raw ik t.val) 0x5A827999#32) ∧
    (20 ≤ t.val → t.val < 40 → (expand ik)[t] = add32 (raw ik t.val) 0x6ED9EBA1#32) ∧
    (40 ≤ t.val → t.val < 60 → (expand ik)[t] = add32 (raw ik t.val) 0x8F1BBCDC#32) ∧
    (60 ≤ t.val → (expand ik)[t] = add32 (raw ik t.val) 0xCA62C1D6#32)

/-- 42_key_schedule.md R147: corner cases of the schedule, which the spec marks "derived: from rule R141". That the all-zero
key's raw words stay 0 past word 79 is the model's choice (log 19). -/
def Obligations.ScheduleCornerCases : Prop :=
  (∀ ik : Vector Word 4, raw ik 16 = rotl (ik[1] ^^^ ik[2]) 1 ∧ raw ik 17 = rotl (ik[2] ^^^ ik[3]) 1 ∧
    raw ik 18 = rotl (ik[3] ^^^ ik[0]) 1) ∧
  (∀ t : Nat, raw (Vector.replicate 4 0x00000000#32) t = 0x00000000#32) ∧
  (∀ t : Fin 80, (expand (Vector.replicate 4 0x00000000#32))[t] = roundConstant (quartile t)) ∧
  raw (Vector.replicate 4 0xFFFFFFFF#32) 16 = 0x00000000#32 ∧
  raw (Vector.replicate 4 0xFFFFFFFF#32) 17 = 0x00000000#32 ∧
  raw (Vector.replicate 4 0xFFFFFFFF#32) 18 = 0x00000000#32

/-! ### Whole commands -/

/-- 42_key_schedule.md R143: EXPAND accepted in IDLE, then 80 edges without reset, whatever else the host presents in them. The
spec marks the net effect "derived: from rules R144 and R145". The count of 80 edges is the spec's, which lets a model take it
as a parameter (log 11). -/
def Obligations.ExpandCommandFillsStore : Prop :=
  ∀ s : State, s.mode = .idle → NoReset 81 s → decodePorts (presented s) = .expand →
    ∃ t, cycles 81 s = .next t ∧
      t.ek = expand s.ik ∧ t.keyrdy = true ∧ t.done = true ∧ t.mode = .idle ∧ t.ctr = 0 ∧
      t.ik = s.ik ∧ t.blk = s.blk ∧ t.inputs = s.inputs.drop 81

/-- 43_cipher_engine.md R168: ENCRYPT accepted in IDLE, then 80 edges without reset, whatever else the host presents in them.
The spec marks the net effect "derived: rules R160, R163, R165" (80 edges: log 11). -/
def Obligations.EncryptCommandTransformsBlock : Prop :=
  ∀ s : State, s.mode = .idle → s.keyrdy = true → NoReset 81 s → decodePorts (presented s) = .encrypt →
    ∃ t, cycles 81 s = .next t ∧
      t.blk = encryptBlock s.ek s.blk ∧ t.done = true ∧ t.mode = .idle ∧ t.ctr = 0 ∧
      t.keyrdy = true ∧ t.ik = s.ik ∧ t.ek = s.ek ∧ t.inputs = s.inputs.drop 81

/-- 43_cipher_engine.md R169: DECRYPT accepted in IDLE, then 80 edges without reset, whatever else the host presents in them.
The spec marks the net effect "derived: rules R161, R163, R166" (80 edges: log 11). -/
def Obligations.DecryptCommandTransformsBlock : Prop :=
  ∀ s : State, s.mode = .idle → s.keyrdy = true → NoReset 81 s → decodePorts (presented s) = .decrypt →
    ∃ t, cycles 81 s = .next t ∧
      t.blk = decryptBlock s.ek s.blk ∧ t.done = true ∧ t.mode = .idle ∧ t.ctr = 0 ∧
      t.keyrdy = true ∧ t.ik = s.ik ∧ t.ek = s.ek ∧ t.inputs = s.inputs.drop 81

/-- 70_reset_and_hazards.md R254: BUSY reads 1 in the 80 cycles after the acceptance edge and 0, with DONE, in the next. The
spec marks it "derived: from 43_cipher_engine.md rules R163, R164 and R167, and rule R251"; taking the latency as 80 and not
as a parameter is the model's choice (log 11). -/
def Obligations.CommandLatencyIs80 : Prop :=
  ∀ (s : State) (p : Command) (n : Nat), s.mode = .idle → (p = .expand ∨ s.keyrdy = true) →
    decodePorts (presented s) = p.instr → 1 ≤ n → n ≤ 81 → NoReset n s →
    ∃ t, cycles n s = .next t ∧
      (n ≤ 80 → (memRead t 0x01#8).getLsbD 0 = true ∧ t.mode = modeOf p ∧ t.ctr.val = n - 1) ∧
      (n = 81 → (memRead t 0x01#8).getLsbD 0 = false ∧ t.mode = .idle ∧ t.done = true)

/-! ### Invariants and what the host can see -/

/-- The invariant of Safety.lean holds at reset; the window and the store are not looked at there, so no value of logs 3 and 4
matters. -/
def Obligations.InvariantAtReset : Prop := Inv State.reset

/-- 10_state.md R32, 60_exceptions.md R212, 70_reset_and_hazards.md R247, 42_key_schedule.md R145: every step from every
state that meets the invariant leaves one that does. The spec marks R247's clause and R145 as derived. -/
def Obligations.StepKeepsInvariant : Prop :=
  ∀ s t : State, Inv s → step s = .next t → Inv t

/-- 92_eei_decisions.md D3, D29, 93_implementation_defined.md section 1: states that differ only in what the spec calls
unspecified stay so, and show a host the same reads and the same `irq` ("No host-visible value depends on it"). It holds for
every value of the free words (logs 5, 6) and of `draws` (log 7). -/
def Obligations.HostCannotSeeUnspecifiedWords : Prop :=
  ∀ s t : State, SameToHost s t →
    (∀ a : SlotAddr, memRead s a = memRead t a) ∧ irq s = irq t ∧
    ∃ s' t', step s = .next s' ∧ step t = .next t' ∧ SameToHost s' t'

/-! ### The host's pipeline -/

/-- 44_host_pipeline.md R191: 1 to 20 zero bytes, always, up to a multiple of 20. -/
def Obligations.PaddingRule : Prop :=
  ∀ bytes : List Byte, ∃ n : Nat, 1 ≤ n ∧ n ≤ 20 ∧ n = 20 - bytes.length % 20 ∧
    pad bytes = bytes ++ List.replicate n 0x00#8 ∧ (pad bytes).length % 20 = 0 ∧
    (bytes.length % 20 = 0 → n = 20)

/-- 44_host_pipeline.md R193: packing and unpacking undo each other, which the spec marks "derived: from rules R192 and R193". -/
def Obligations.PackUnpackInverse : Prop :=
  (∀ bytes : List Byte, bytes.length % 4 = 0 → pack (unpack bytes) = bytes) ∧
  (∀ words : List Word, unpack (pack words) = words)

/-- 44_host_pipeline.md R199: decrypting an encrypted byte string gives the padded input, not the input; the spec marks it
"derived: from 43_cipher_engine.md rule R162 and rules R191, R195, R196". -/
def Obligations.PipelineRoundTripKeepsPadding : Prop :=
  ∀ (bytes : List Byte) (ik : Vector Word 4), decryptBytes (encryptBytes bytes ik) ik = .ok (pad bytes)

/-- 44_host_pipeline.md R195, R196: lengths, and when decryption fails. -/
def Obligations.PipelineLengths : Prop :=
  (∀ (bytes : List Byte) (ik : Vector Word 4),
    (encryptBytes bytes ik).length = bytes.length + (20 - bytes.length % 20)) ∧
  (∀ (bytes : List Byte) (ik : Vector Word 4), bytes.length % 20 ≠ 0 →
    decryptBytes bytes ik = .error .invalidCiphertextLength) ∧
  (∀ (bytes : List Byte) (ik : Vector Word 4), bytes.length % 20 = 0 →
    ∃ out, decryptBytes bytes ik = .ok out ∧ out.length = bytes.length)

/-- 44_host_pipeline.md R198: blocks are transformed one by one, with no chaining; for a changed block the spec marks it
"derived for the second: block j's output depends only on block j's input and EK, by rule R195". That bytes of `y` after its last
whole block are dropped on both sides is the model's choice (log 18). -/
def Obligations.EcbBlocksIndependent : Prop :=
  ∀ (f : Block → Block) (x y : List Byte), x.length % 20 = 0 → mapBlocks f (x ++ y) = mapBlocks f x ++ mapBlocks f y

/-- 20_memory.md R66: an access at byte offset 4a to 4a + 3 is an access of slot a. -/
def Obligations.ByteAddressSelectsSlot : Prop :=
  ∀ (a : SlotAddr) (k : Fin 4), slotOfByteAddress (BitVec.ofNat 10 (4 * a.toNat + k.val)) = a
end

