-- ==== Sys2Proof/Laws/Datapath.lean ====
section
/-! SUPPORT. The datapath in the library's terms: the adder, the rotation, the key schedule's equations. -/

namespace Sys2Proof.Machine

theorem add32_eq_add (a b : Word) : add32 a b = a + b := by
  apply BitVec.eq_of_toNat_eq
  simp [add32]

theorem sub32_eq_sub (a b : Word) : sub32 a b = a - b := by
  apply BitVec.eq_of_toNat_eq
  have ha := a.isLt
  have hb := b.isLt
  simp only [sub32, BitVec.toNat_ofInt, BitVec.toNat_sub]
  omega

theorem rotl_eq_rotateLeft (x : Word) (n : Nat) (h : n < 32) : rotl x n = x.rotateLeft n := by
  rw [BitVec.rotateLeft_def, Nat.mod_eq_of_lt h, rotl]

/-- The recurrence of 42_key_schedule.md R141 at index `n + 16`. -/
theorem raw_add_16 (ik : Vector Word 4) (n : Nat) :
    raw ik (n + 16) = recur (raw ik (n + 13)) (raw ik (n + 8)) (raw ik (n + 2)) (raw ik n) := by
  rw [raw]

@[simp] theorem expand_get (ik : Vector Word 4) (t : Fin 80) :
    (expand ik)[t] = add32 (raw ik t.val) (roundConstant (quartile t)) := by
  simp [expand]

@[simp] theorem shiftWindow_top (win : Vector Word 16) (r : Word) : (shiftWindow win r)[15] = r := by
  simp [shiftWindow]

theorem shiftWindow_below (win : Vector Word 16) (r : Word) (j : Nat) (h : j + 1 < 16) :
    (shiftWindow win r)[j] = win[j + 1] := by
  simp [shiftWindow, h]

end Sys2Proof.Machine
end

