-- ==== Sys2Proof/Laws/State.lean ====
section
/-! SUPPORT. One lemma per field of State per named update: what the update leaves there. -/

namespace Sys2Proof.Machine

@[simp] theorem raiseError_ik (c : ErrorCode) (s : State) : (raiseError c s).ik = s.ik := rfl
@[simp] theorem raiseError_blk (c : ErrorCode) (s : State) : (raiseError c s).blk = s.blk := rfl
@[simp] theorem raiseError_ek (c : ErrorCode) (s : State) : (raiseError c s).ek = s.ek := rfl
@[simp] theorem raiseError_mode (c : ErrorCode) (s : State) : (raiseError c s).mode = s.mode := rfl
@[simp] theorem raiseError_ctr (c : ErrorCode) (s : State) : (raiseError c s).ctr = s.ctr := rfl
@[simp] theorem raiseError_win (c : ErrorCode) (s : State) : (raiseError c s).win = s.win := rfl
@[simp] theorem raiseError_keyrdy (c : ErrorCode) (s : State) : (raiseError c s).keyrdy = s.keyrdy := rfl
@[simp] theorem raiseError_done (c : ErrorCode) (s : State) : (raiseError c s).done = s.done := rfl
@[simp] theorem raiseError_err (c : ErrorCode) (s : State) : (raiseError c s).err = true := rfl
@[simp] theorem raiseError_errcode (c : ErrorCode) (s : State) : (raiseError c s).errcode = if s.err then s.errcode else errorNumber c := rfl
@[simp] theorem raiseError_irqen (c : ErrorCode) (s : State) : (raiseError c s).irqen = s.irqen := rfl
@[simp] theorem raiseError_rdata (c : ErrorCode) (s : State) : (raiseError c s).rdata = s.rdata := rfl
@[simp] theorem raiseError_inputs (c : ErrorCode) (s : State) : (raiseError c s).inputs = s.inputs := rfl
@[simp] theorem raiseError_draws (c : ErrorCode) (s : State) : (raiseError c s).draws = s.draws := rfl

@[simp] theorem clearError_ik (s : State) : (clearError s).ik = s.ik := rfl
@[simp] theorem clearError_blk (s : State) : (clearError s).blk = s.blk := rfl
@[simp] theorem clearError_ek (s : State) : (clearError s).ek = s.ek := rfl
@[simp] theorem clearError_mode (s : State) : (clearError s).mode = s.mode := rfl
@[simp] theorem clearError_ctr (s : State) : (clearError s).ctr = s.ctr := rfl
@[simp] theorem clearError_win (s : State) : (clearError s).win = s.win := rfl
@[simp] theorem clearError_keyrdy (s : State) : (clearError s).keyrdy = s.keyrdy := rfl
@[simp] theorem clearError_done (s : State) : (clearError s).done = s.done := rfl
@[simp] theorem clearError_err (s : State) : (clearError s).err = false := rfl
@[simp] theorem clearError_errcode (s : State) : (clearError s).errcode = 0#4 := rfl
@[simp] theorem clearError_irqen (s : State) : (clearError s).irqen = s.irqen := rfl
@[simp] theorem clearError_rdata (s : State) : (clearError s).rdata = s.rdata := rfl
@[simp] theorem clearError_inputs (s : State) : (clearError s).inputs = s.inputs := rfl
@[simp] theorem clearError_draws (s : State) : (clearError s).draws = s.draws := rfl

@[simp] theorem clearDone_ik (s : State) : (clearDone s).ik = s.ik := rfl
@[simp] theorem clearDone_blk (s : State) : (clearDone s).blk = s.blk := rfl
@[simp] theorem clearDone_ek (s : State) : (clearDone s).ek = s.ek := rfl
@[simp] theorem clearDone_mode (s : State) : (clearDone s).mode = s.mode := rfl
@[simp] theorem clearDone_ctr (s : State) : (clearDone s).ctr = s.ctr := rfl
@[simp] theorem clearDone_win (s : State) : (clearDone s).win = s.win := rfl
@[simp] theorem clearDone_keyrdy (s : State) : (clearDone s).keyrdy = s.keyrdy := rfl
@[simp] theorem clearDone_done (s : State) : (clearDone s).done = false := rfl
@[simp] theorem clearDone_err (s : State) : (clearDone s).err = s.err := rfl
@[simp] theorem clearDone_errcode (s : State) : (clearDone s).errcode = s.errcode := rfl
@[simp] theorem clearDone_irqen (s : State) : (clearDone s).irqen = s.irqen := rfl
@[simp] theorem clearDone_rdata (s : State) : (clearDone s).rdata = s.rdata := rfl
@[simp] theorem clearDone_inputs (s : State) : (clearDone s).inputs = s.inputs := rfl
@[simp] theorem clearDone_draws (s : State) : (clearDone s).draws = s.draws := rfl

@[simp] theorem writeIrqen_ik (v : Word) (s : State) : (writeIrqen v s).ik = s.ik := rfl
@[simp] theorem writeIrqen_blk (v : Word) (s : State) : (writeIrqen v s).blk = s.blk := rfl
@[simp] theorem writeIrqen_ek (v : Word) (s : State) : (writeIrqen v s).ek = s.ek := rfl
@[simp] theorem writeIrqen_mode (v : Word) (s : State) : (writeIrqen v s).mode = s.mode := rfl
@[simp] theorem writeIrqen_ctr (v : Word) (s : State) : (writeIrqen v s).ctr = s.ctr := rfl
@[simp] theorem writeIrqen_win (v : Word) (s : State) : (writeIrqen v s).win = s.win := rfl
@[simp] theorem writeIrqen_keyrdy (v : Word) (s : State) : (writeIrqen v s).keyrdy = s.keyrdy := rfl
@[simp] theorem writeIrqen_done (v : Word) (s : State) : (writeIrqen v s).done = s.done := rfl
@[simp] theorem writeIrqen_err (v : Word) (s : State) : (writeIrqen v s).err = s.err := rfl
@[simp] theorem writeIrqen_errcode (v : Word) (s : State) : (writeIrqen v s).errcode = s.errcode := rfl
@[simp] theorem writeIrqen_irqen (v : Word) (s : State) : (writeIrqen v s).irqen = v.extractLsb' 0 2 := rfl
@[simp] theorem writeIrqen_rdata (v : Word) (s : State) : (writeIrqen v s).rdata = s.rdata := rfl
@[simp] theorem writeIrqen_inputs (v : Word) (s : State) : (writeIrqen v s).inputs = s.inputs := rfl
@[simp] theorem writeIrqen_draws (v : Word) (s : State) : (writeIrqen v s).draws = s.draws := rfl

@[simp] theorem setKey_ik (j : Fin 4) (v : Word) (s : State) : (setKey j v s).ik = s.ik.set j v := rfl
@[simp] theorem setKey_blk (j : Fin 4) (v : Word) (s : State) : (setKey j v s).blk = s.blk := rfl
@[simp] theorem setKey_ek (j : Fin 4) (v : Word) (s : State) : (setKey j v s).ek = s.ek := rfl
@[simp] theorem setKey_mode (j : Fin 4) (v : Word) (s : State) : (setKey j v s).mode = s.mode := rfl
@[simp] theorem setKey_ctr (j : Fin 4) (v : Word) (s : State) : (setKey j v s).ctr = s.ctr := rfl
@[simp] theorem setKey_win (j : Fin 4) (v : Word) (s : State) : (setKey j v s).win = s.win := rfl
@[simp] theorem setKey_keyrdy (j : Fin 4) (v : Word) (s : State) : (setKey j v s).keyrdy = false := rfl
@[simp] theorem setKey_done (j : Fin 4) (v : Word) (s : State) : (setKey j v s).done = s.done := rfl
@[simp] theorem setKey_err (j : Fin 4) (v : Word) (s : State) : (setKey j v s).err = s.err := rfl
@[simp] theorem setKey_errcode (j : Fin 4) (v : Word) (s : State) : (setKey j v s).errcode = s.errcode := rfl
@[simp] theorem setKey_irqen (j : Fin 4) (v : Word) (s : State) : (setKey j v s).irqen = s.irqen := rfl
@[simp] theorem setKey_rdata (j : Fin 4) (v : Word) (s : State) : (setKey j v s).rdata = s.rdata := rfl
@[simp] theorem setKey_inputs (j : Fin 4) (v : Word) (s : State) : (setKey j v s).inputs = s.inputs := rfl
@[simp] theorem setKey_draws (j : Fin 4) (v : Word) (s : State) : (setKey j v s).draws = s.draws := rfl

@[simp] theorem setBlk_ik (j : Fin 5) (v : Word) (s : State) : (setBlk j v s).ik = s.ik := rfl
@[simp] theorem setBlk_blk (j : Fin 5) (v : Word) (s : State) : (setBlk j v s).blk = setBlockWord s.blk j v := rfl
@[simp] theorem setBlk_ek (j : Fin 5) (v : Word) (s : State) : (setBlk j v s).ek = s.ek := rfl
@[simp] theorem setBlk_mode (j : Fin 5) (v : Word) (s : State) : (setBlk j v s).mode = s.mode := rfl
@[simp] theorem setBlk_ctr (j : Fin 5) (v : Word) (s : State) : (setBlk j v s).ctr = s.ctr := rfl
@[simp] theorem setBlk_win (j : Fin 5) (v : Word) (s : State) : (setBlk j v s).win = s.win := rfl
@[simp] theorem setBlk_keyrdy (j : Fin 5) (v : Word) (s : State) : (setBlk j v s).keyrdy = s.keyrdy := rfl
@[simp] theorem setBlk_done (j : Fin 5) (v : Word) (s : State) : (setBlk j v s).done = s.done := rfl
@[simp] theorem setBlk_err (j : Fin 5) (v : Word) (s : State) : (setBlk j v s).err = s.err := rfl
@[simp] theorem setBlk_errcode (j : Fin 5) (v : Word) (s : State) : (setBlk j v s).errcode = s.errcode := rfl
@[simp] theorem setBlk_irqen (j : Fin 5) (v : Word) (s : State) : (setBlk j v s).irqen = s.irqen := rfl
@[simp] theorem setBlk_rdata (j : Fin 5) (v : Word) (s : State) : (setBlk j v s).rdata = s.rdata := rfl
@[simp] theorem setBlk_inputs (j : Fin 5) (v : Word) (s : State) : (setBlk j v s).inputs = s.inputs := rfl
@[simp] theorem setBlk_draws (j : Fin 5) (v : Word) (s : State) : (setBlk j v s).draws = s.draws := rfl

@[simp] theorem accept_ik (p : Command) (s : State) : (accept p s).ik = s.ik := rfl
@[simp] theorem accept_blk (p : Command) (s : State) : (accept p s).blk = s.blk := rfl
@[simp] theorem accept_ek (p : Command) (s : State) : (accept p s).ek = s.ek := rfl
@[simp] theorem accept_mode (p : Command) (s : State) : (accept p s).mode = modeOf p := rfl
@[simp] theorem accept_ctr (p : Command) (s : State) : (accept p s).ctr = 0 := rfl
@[simp] theorem accept_win (p : Command) (s : State) : (accept p s).win = s.win := rfl
@[simp] theorem accept_keyrdy (p : Command) (s : State) : (accept p s).keyrdy = if p = .expand then false else s.keyrdy := rfl
@[simp] theorem accept_done (p : Command) (s : State) : (accept p s).done = false := rfl
@[simp] theorem accept_err (p : Command) (s : State) : (accept p s).err = s.err := rfl
@[simp] theorem accept_errcode (p : Command) (s : State) : (accept p s).errcode = s.errcode := rfl
@[simp] theorem accept_irqen (p : Command) (s : State) : (accept p s).irqen = s.irqen := rfl
@[simp] theorem accept_rdata (p : Command) (s : State) : (accept p s).rdata = s.rdata := rfl
@[simp] theorem accept_inputs (p : Command) (s : State) : (accept p s).inputs = s.inputs := rfl
@[simp] theorem accept_draws (p : Command) (s : State) : (accept p s).draws = s.draws := rfl

@[simp] theorem forgetWindow_ik (s : State) : (forgetWindow s).ik = s.ik := rfl
@[simp] theorem forgetWindow_blk (s : State) : (forgetWindow s).blk = s.blk := rfl
@[simp] theorem forgetWindow_ek (s : State) : (forgetWindow s).ek = s.ek := rfl
@[simp] theorem forgetWindow_mode (s : State) : (forgetWindow s).mode = s.mode := rfl
@[simp] theorem forgetWindow_ctr (s : State) : (forgetWindow s).ctr = s.ctr := rfl
@[simp] theorem forgetWindow_win (s : State) : (forgetWindow s).win = unspecifiedWindow s.draws := rfl
@[simp] theorem forgetWindow_keyrdy (s : State) : (forgetWindow s).keyrdy = s.keyrdy := rfl
@[simp] theorem forgetWindow_done (s : State) : (forgetWindow s).done = s.done := rfl
@[simp] theorem forgetWindow_err (s : State) : (forgetWindow s).err = s.err := rfl
@[simp] theorem forgetWindow_errcode (s : State) : (forgetWindow s).errcode = s.errcode := rfl
@[simp] theorem forgetWindow_irqen (s : State) : (forgetWindow s).irqen = s.irqen := rfl
@[simp] theorem forgetWindow_rdata (s : State) : (forgetWindow s).rdata = s.rdata := rfl
@[simp] theorem forgetWindow_inputs (s : State) : (forgetWindow s).inputs = s.inputs := rfl
@[simp] theorem forgetWindow_draws (s : State) : (forgetWindow s).draws = s.draws + 16 := rfl

@[simp] theorem expanderStep_ik (p s : State) : (expanderStep p s).ik = s.ik := rfl
@[simp] theorem expanderStep_blk (p s : State) : (expanderStep p s).blk = s.blk := rfl
@[simp] theorem expanderStep_ek (p s : State) : (expanderStep p s).ek = p.ek.set p.ctr (add32 (expanderWord p.ik p.win p.ctr) (roundConstant (quartile p.ctr))) := rfl
@[simp] theorem expanderStep_mode (p s : State) : (expanderStep p s).mode = s.mode := rfl
@[simp] theorem expanderStep_ctr (p s : State) : (expanderStep p s).ctr = s.ctr := rfl
@[simp] theorem expanderStep_win (p s : State) : (expanderStep p s).win = shiftWindow p.win (expanderWord p.ik p.win p.ctr) := rfl
@[simp] theorem expanderStep_keyrdy (p s : State) : (expanderStep p s).keyrdy = s.keyrdy := rfl
@[simp] theorem expanderStep_done (p s : State) : (expanderStep p s).done = s.done := rfl
@[simp] theorem expanderStep_err (p s : State) : (expanderStep p s).err = s.err := rfl
@[simp] theorem expanderStep_errcode (p s : State) : (expanderStep p s).errcode = s.errcode := rfl
@[simp] theorem expanderStep_irqen (p s : State) : (expanderStep p s).irqen = s.irqen := rfl
@[simp] theorem expanderStep_rdata (p s : State) : (expanderStep p s).rdata = s.rdata := rfl
@[simp] theorem expanderStep_inputs (p s : State) : (expanderStep p s).inputs = s.inputs := rfl
@[simp] theorem expanderStep_draws (p s : State) : (expanderStep p s).draws = s.draws := rfl

@[simp] theorem encryptStep_ik (p s : State) : (encryptStep p s).ik = s.ik := rfl
@[simp] theorem encryptStep_blk (p s : State) : (encryptStep p s).blk = encRound p.blk p.ek[p.ctr] p.ctr := rfl
@[simp] theorem encryptStep_ek (p s : State) : (encryptStep p s).ek = s.ek := rfl
@[simp] theorem encryptStep_mode (p s : State) : (encryptStep p s).mode = s.mode := rfl
@[simp] theorem encryptStep_ctr (p s : State) : (encryptStep p s).ctr = s.ctr := rfl
@[simp] theorem encryptStep_win (p s : State) : (encryptStep p s).win = s.win := rfl
@[simp] theorem encryptStep_keyrdy (p s : State) : (encryptStep p s).keyrdy = s.keyrdy := rfl
@[simp] theorem encryptStep_done (p s : State) : (encryptStep p s).done = s.done := rfl
@[simp] theorem encryptStep_err (p s : State) : (encryptStep p s).err = s.err := rfl
@[simp] theorem encryptStep_errcode (p s : State) : (encryptStep p s).errcode = s.errcode := rfl
@[simp] theorem encryptStep_irqen (p s : State) : (encryptStep p s).irqen = s.irqen := rfl
@[simp] theorem encryptStep_rdata (p s : State) : (encryptStep p s).rdata = s.rdata := rfl
@[simp] theorem encryptStep_inputs (p s : State) : (encryptStep p s).inputs = s.inputs := rfl
@[simp] theorem encryptStep_draws (p s : State) : (encryptStep p s).draws = s.draws := rfl

@[simp] theorem decryptStep_ik (p s : State) : (decryptStep p s).ik = s.ik := rfl
@[simp] theorem decryptStep_blk (p s : State) : (decryptStep p s).blk = decRound p.blk p.ek[decSubkeyIndex p.ctr] p.ctr := rfl
@[simp] theorem decryptStep_ek (p s : State) : (decryptStep p s).ek = s.ek := rfl
@[simp] theorem decryptStep_mode (p s : State) : (decryptStep p s).mode = s.mode := rfl
@[simp] theorem decryptStep_ctr (p s : State) : (decryptStep p s).ctr = s.ctr := rfl
@[simp] theorem decryptStep_win (p s : State) : (decryptStep p s).win = s.win := rfl
@[simp] theorem decryptStep_keyrdy (p s : State) : (decryptStep p s).keyrdy = s.keyrdy := rfl
@[simp] theorem decryptStep_done (p s : State) : (decryptStep p s).done = s.done := rfl
@[simp] theorem decryptStep_err (p s : State) : (decryptStep p s).err = s.err := rfl
@[simp] theorem decryptStep_errcode (p s : State) : (decryptStep p s).errcode = s.errcode := rfl
@[simp] theorem decryptStep_irqen (p s : State) : (decryptStep p s).irqen = s.irqen := rfl
@[simp] theorem decryptStep_rdata (p s : State) : (decryptStep p s).rdata = s.rdata := rfl
@[simp] theorem decryptStep_inputs (p s : State) : (decryptStep p s).inputs = s.inputs := rfl
@[simp] theorem decryptStep_draws (p s : State) : (decryptStep p s).draws = s.draws := rfl

@[simp] theorem complete_ik (s : State) : (complete s).ik = s.ik := rfl
@[simp] theorem complete_blk (s : State) : (complete s).blk = s.blk := rfl
@[simp] theorem complete_ek (s : State) : (complete s).ek = s.ek := rfl
@[simp] theorem complete_mode (s : State) : (complete s).mode = .idle := rfl
@[simp] theorem complete_ctr (s : State) : (complete s).ctr = 0 := rfl
@[simp] theorem complete_win (s : State) : (complete s).win = s.win := rfl
@[simp] theorem complete_keyrdy (s : State) : (complete s).keyrdy = s.keyrdy := rfl
@[simp] theorem complete_done (s : State) : (complete s).done = true := rfl
@[simp] theorem complete_err (s : State) : (complete s).err = s.err := rfl
@[simp] theorem complete_errcode (s : State) : (complete s).errcode = s.errcode := rfl
@[simp] theorem complete_irqen (s : State) : (complete s).irqen = s.irqen := rfl
@[simp] theorem complete_rdata (s : State) : (complete s).rdata = s.rdata := rfl
@[simp] theorem complete_inputs (s : State) : (complete s).inputs = s.inputs := rfl
@[simp] theorem complete_draws (s : State) : (complete s).draws = s.draws := rfl

@[simp] theorem completeExpand_ik (s : State) : (completeExpand s).ik = s.ik := rfl
@[simp] theorem completeExpand_blk (s : State) : (completeExpand s).blk = s.blk := rfl
@[simp] theorem completeExpand_ek (s : State) : (completeExpand s).ek = s.ek := rfl
@[simp] theorem completeExpand_mode (s : State) : (completeExpand s).mode = .idle := rfl
@[simp] theorem completeExpand_ctr (s : State) : (completeExpand s).ctr = 0 := rfl
@[simp] theorem completeExpand_win (s : State) : (completeExpand s).win = unspecifiedWindow s.draws := rfl
@[simp] theorem completeExpand_keyrdy (s : State) : (completeExpand s).keyrdy = true := rfl
@[simp] theorem completeExpand_done (s : State) : (completeExpand s).done = true := rfl
@[simp] theorem completeExpand_err (s : State) : (completeExpand s).err = s.err := rfl
@[simp] theorem completeExpand_errcode (s : State) : (completeExpand s).errcode = s.errcode := rfl
@[simp] theorem completeExpand_irqen (s : State) : (completeExpand s).irqen = s.irqen := rfl
@[simp] theorem completeExpand_rdata (s : State) : (completeExpand s).rdata = s.rdata := rfl
@[simp] theorem completeExpand_inputs (s : State) : (completeExpand s).inputs = s.inputs := rfl
@[simp] theorem completeExpand_draws (s : State) : (completeExpand s).draws = s.draws + 16 := rfl

@[simp] theorem clockEdge_ik (a : SlotAddr) (s w : State) : (clockEdge a s w).ik = (fsmUpdate s w).ik := rfl
@[simp] theorem clockEdge_blk (a : SlotAddr) (s w : State) : (clockEdge a s w).blk = (fsmUpdate s w).blk := rfl
@[simp] theorem clockEdge_ek (a : SlotAddr) (s w : State) : (clockEdge a s w).ek = (fsmUpdate s w).ek := rfl
@[simp] theorem clockEdge_mode (a : SlotAddr) (s w : State) : (clockEdge a s w).mode = (fsmUpdate s w).mode := rfl
@[simp] theorem clockEdge_ctr (a : SlotAddr) (s w : State) : (clockEdge a s w).ctr = (fsmUpdate s w).ctr := rfl
@[simp] theorem clockEdge_win (a : SlotAddr) (s w : State) : (clockEdge a s w).win = (fsmUpdate s w).win := rfl
@[simp] theorem clockEdge_keyrdy (a : SlotAddr) (s w : State) : (clockEdge a s w).keyrdy = (fsmUpdate s w).keyrdy := rfl
@[simp] theorem clockEdge_done (a : SlotAddr) (s w : State) : (clockEdge a s w).done = (fsmUpdate s w).done := rfl
@[simp] theorem clockEdge_err (a : SlotAddr) (s w : State) : (clockEdge a s w).err = (fsmUpdate s w).err := rfl
@[simp] theorem clockEdge_errcode (a : SlotAddr) (s w : State) : (clockEdge a s w).errcode = (fsmUpdate s w).errcode := rfl
@[simp] theorem clockEdge_irqen (a : SlotAddr) (s w : State) : (clockEdge a s w).irqen = (fsmUpdate s w).irqen := rfl
@[simp] theorem clockEdge_rdata (a : SlotAddr) (s w : State) : (clockEdge a s w).rdata = memRead s a := rfl
@[simp] theorem clockEdge_inputs (a : SlotAddr) (s w : State) : (clockEdge a s w).inputs = (fsmUpdate s w).inputs := rfl
@[simp] theorem clockEdge_draws (a : SlotAddr) (s w : State) : (clockEdge a s w).draws = (fsmUpdate s w).draws := rfl

@[simp] theorem resetEdge_ik (a : SlotAddr) (s : State) : (resetEdge a s).ik = Vector.replicate 4 0#32 := rfl
@[simp] theorem resetEdge_blk (a : SlotAddr) (s : State) : (resetEdge a s).blk = ⟨0#32, 0#32, 0#32, 0#32, 0#32⟩ := rfl
@[simp] theorem resetEdge_ek (a : SlotAddr) (s : State) : (resetEdge a s).ek = unspecifiedStore s.draws := rfl
@[simp] theorem resetEdge_mode (a : SlotAddr) (s : State) : (resetEdge a s).mode = .idle := rfl
@[simp] theorem resetEdge_ctr (a : SlotAddr) (s : State) : (resetEdge a s).ctr = 0 := rfl
@[simp] theorem resetEdge_win (a : SlotAddr) (s : State) : (resetEdge a s).win = unspecifiedWindow (s.draws + 80) := rfl
@[simp] theorem resetEdge_keyrdy (a : SlotAddr) (s : State) : (resetEdge a s).keyrdy = false := rfl
@[simp] theorem resetEdge_done (a : SlotAddr) (s : State) : (resetEdge a s).done = false := rfl
@[simp] theorem resetEdge_err (a : SlotAddr) (s : State) : (resetEdge a s).err = false := rfl
@[simp] theorem resetEdge_errcode (a : SlotAddr) (s : State) : (resetEdge a s).errcode = 0#4 := rfl
@[simp] theorem resetEdge_irqen (a : SlotAddr) (s : State) : (resetEdge a s).irqen = 0#2 := rfl
@[simp] theorem resetEdge_rdata (a : SlotAddr) (s : State) : (resetEdge a s).rdata = memRead s a := rfl
@[simp] theorem resetEdge_inputs (a : SlotAddr) (s : State) : (resetEdge a s).inputs = s.inputs := rfl
@[simp] theorem resetEdge_draws (a : SlotAddr) (s : State) : (resetEdge a s).draws = s.draws + 96 := rfl

@[simp] theorem takeInput_ik (s : State) : (takeInput s).ik = s.ik := rfl
@[simp] theorem takeInput_blk (s : State) : (takeInput s).blk = s.blk := rfl
@[simp] theorem takeInput_ek (s : State) : (takeInput s).ek = s.ek := rfl
@[simp] theorem takeInput_mode (s : State) : (takeInput s).mode = s.mode := rfl
@[simp] theorem takeInput_ctr (s : State) : (takeInput s).ctr = s.ctr := rfl
@[simp] theorem takeInput_win (s : State) : (takeInput s).win = s.win := rfl
@[simp] theorem takeInput_keyrdy (s : State) : (takeInput s).keyrdy = s.keyrdy := rfl
@[simp] theorem takeInput_done (s : State) : (takeInput s).done = s.done := rfl
@[simp] theorem takeInput_err (s : State) : (takeInput s).err = s.err := rfl
@[simp] theorem takeInput_errcode (s : State) : (takeInput s).errcode = s.errcode := rfl
@[simp] theorem takeInput_irqen (s : State) : (takeInput s).irqen = s.irqen := rfl
@[simp] theorem takeInput_rdata (s : State) : (takeInput s).rdata = s.rdata := rfl
@[simp] theorem takeInput_inputs (s : State) : (takeInput s).inputs = s.inputs.tail := rfl
@[simp] theorem takeInput_draws (s : State) : (takeInput s).draws = s.draws := rfl

@[simp] theorem withFetchWord_ik (s : State) (nbits w : Nat) : (s.withFetchWord nbits w).ik = s.ik := rfl
@[simp] theorem withFetchWord_blk (s : State) (nbits w : Nat) : (s.withFetchWord nbits w).blk = s.blk := rfl
@[simp] theorem withFetchWord_ek (s : State) (nbits w : Nat) : (s.withFetchWord nbits w).ek = s.ek := rfl
@[simp] theorem withFetchWord_mode (s : State) (nbits w : Nat) : (s.withFetchWord nbits w).mode = s.mode := rfl
@[simp] theorem withFetchWord_ctr (s : State) (nbits w : Nat) : (s.withFetchWord nbits w).ctr = s.ctr := rfl
@[simp] theorem withFetchWord_win (s : State) (nbits w : Nat) : (s.withFetchWord nbits w).win = s.win := rfl
@[simp] theorem withFetchWord_keyrdy (s : State) (nbits w : Nat) : (s.withFetchWord nbits w).keyrdy = s.keyrdy := rfl
@[simp] theorem withFetchWord_done (s : State) (nbits w : Nat) : (s.withFetchWord nbits w).done = s.done := rfl
@[simp] theorem withFetchWord_err (s : State) (nbits w : Nat) : (s.withFetchWord nbits w).err = s.err := rfl
@[simp] theorem withFetchWord_errcode (s : State) (nbits w : Nat) : (s.withFetchWord nbits w).errcode = s.errcode := rfl
@[simp] theorem withFetchWord_irqen (s : State) (nbits w : Nat) : (s.withFetchWord nbits w).irqen = s.irqen := rfl
@[simp] theorem withFetchWord_rdata (s : State) (nbits w : Nat) : (s.withFetchWord nbits w).rdata = s.rdata := rfl
@[simp] theorem withFetchWord_inputs (s : State) (nbits w : Nat) : (s.withFetchWord nbits w).inputs = tableWordPorts nbits w :: s.inputs.tail := rfl
@[simp] theorem withFetchWord_draws (s : State) (nbits w : Nat) : (s.withFetchWord nbits w).draws = s.draws := rfl

end Sys2Proof.Machine
end

