-- ==== Sys2Proof/Laws/Ops.lean ====
section
/-! SUPPORT. Once each, what a shared operation can do. Later proofs cite these instead of unfolding the operation. -/

namespace Sys2Proof.Machine

/-! ### Slots and reads -/

theorem slotOf_key (j : Fin 4) : slotOf (BitVec.ofNat 8 (0x04 + j.val)) = .key j := by revert j; decide

theorem slotOf_blk (j : Fin 5) : slotOf (BitVec.ofNat 8 (0x08 + j.val)) = .blk j := by revert j; decide

theorem slotOf_ek (t : Fin 80) : slotOf (BitVec.ofNat 8 (0x80 + t.val)) = .ek t := by revert t; decide

/-! The only addresses of each register slot. -/

theorem addr_of_cmd {a : SlotAddr} : slotOf a = .cmd → a = 0x00#8 := by revert a; decide

theorem addr_of_status {a : SlotAddr} : slotOf a = .status → a = 0x01#8 := by revert a; decide

theorem addr_of_irqen {a : SlotAddr} : slotOf a = .irqen → a = 0x02#8 := by revert a; decide

theorem addr_of_key {a : SlotAddr} : ∀ {j : Fin 4}, slotOf a = .key j → a = BitVec.ofNat 8 (0x04 + j.val) := by
  revert a; decide

theorem addr_of_blk {a : SlotAddr} : ∀ {j : Fin 5}, slotOf a = .blk j → a = BitVec.ofNat 8 (0x08 + j.val) := by
  revert a; decide

/-- The addresses KEY0 to KEY3 are key slots. -/
theorem slotOf_key_range {a : SlotAddr} : 0x04 ≤ a.toNat → a.toNat ≤ 0x07 → ∃ j, slotOf a = .key j := by
  revert a; decide

/-- The addresses BLK0 to BLK4 are block slots. -/
theorem slotOf_blk_range {a : SlotAddr} : 0x08 ≤ a.toNat → a.toNat ≤ 0x0C → ∃ j, slotOf a = .blk j := by
  revert a; decide

/-- A reserved or EK address. -/
theorem slotOf_ignored_range {a : SlotAddr} :
    a = 0x03#8 ∨ 0x0D ≤ a.toNat → slotOf a = .reserved ∨ ∃ t, slotOf a = .ek t := by
  intro h
  cases k : slotOf a with
  | cmd => rw [addr_of_cmd k] at h; exact absurd h (by decide)
  | status => rw [addr_of_status k] at h; exact absurd h (by decide)
  | irqen => rw [addr_of_irqen k] at h; exact absurd h (by decide)
  | key j => rw [addr_of_key k] at h; exact absurd h (by clear h k; revert j; decide)
  | blk j => rw [addr_of_blk k] at h; exact absurd h (by clear h k; revert j; decide)
  | ek t => exact .inr ⟨t, rfl⟩
  | reserved => exact .inl rfl

theorem memRead_cmd {a : SlotAddr} (h : slotOf a = .cmd) (s : State) : memRead s a = 0#32 := by
  simp [memRead, h]

theorem memRead_status {a : SlotAddr} (h : slotOf a = .status) (s : State) : memRead s a = statusWord s := by
  simp [memRead, h]

theorem memRead_irqen {a : SlotAddr} (h : slotOf a = .irqen) (s : State) :
    memRead s a = BitVec.setWidth 32 s.irqen := by
  simp [memRead, h]

theorem memRead_key {a : SlotAddr} {j : Fin 4} (h : slotOf a = .key j) (s : State) : memRead s a = s.ik[j] := by
  simp [memRead, h]

theorem memRead_blk {a : SlotAddr} {j : Fin 5} (h : slotOf a = .blk j) (s : State) :
    memRead s a = if s.mode = .encrypt ∨ s.mode = .decrypt then 0#32 else blockWord s.blk j := by
  simp [memRead, h]

theorem memRead_ek {a : SlotAddr} {t : Fin 80} (h : slotOf a = .ek t) (s : State) :
    memRead s a = if s.keyrdy then s.ek[t] else 0#32 := by
  simp [memRead, h]

theorem memRead_reserved {a : SlotAddr} (h : slotOf a = .reserved) (s : State) : memRead s a = 0#32 := by
  simp [memRead, h]

theorem memWrite_cmd {a : SlotAddr} (h : slotOf a = .cmd) (v : Word) (s : State) : memWrite a v s = writeCmd v s := by
  simp [memWrite, h]

theorem memWrite_status {a : SlotAddr} (h : slotOf a = .status) (v : Word) (s : State) :
    memWrite a v s = writeStatus v s := by
  simp [memWrite, h]

theorem memWrite_irqen {a : SlotAddr} (h : slotOf a = .irqen) (v : Word) (s : State) :
    memWrite a v s = writeIrqen v s := by
  simp [memWrite, h]

theorem memWrite_key {a : SlotAddr} {j : Fin 4} (h : slotOf a = .key j) (v : Word) (s : State) :
    memWrite a v s = writeKey j v s := by
  simp [memWrite, h]

theorem memWrite_blk {a : SlotAddr} {j : Fin 5} (h : slotOf a = .blk j) (v : Word) (s : State) :
    memWrite a v s = writeBlk j v s := by
  simp [memWrite, h]

theorem memWrite_ek {a : SlotAddr} {t : Fin 80} (h : slotOf a = .ek t) (v : Word) (s : State) :
    memWrite a v s = s := by
  simp [memWrite, h]

theorem memWrite_reserved {a : SlotAddr} (h : slotOf a = .reserved) (v : Word) (s : State) : memWrite a v s = s := by
  simp [memWrite, h]

/-! ### The host write's part of an edge -/

/-- What a host write can do to the state: nothing, an error record, a STATUS or IRQEN write, or (in IDLE only) a key
write, a block write or the acceptance of a command. -/
inductive HostEffect (s : State) : State → Prop where
  | none : HostEffect s s
  | error (c : ErrorCode) : HostEffect s (raiseError c s)
  | status (v : Word) : HostEffect s (writeStatus v s)
  | irqen (v : Word) : HostEffect s (writeIrqen v s)
  | key (j : Fin 4) (v : Word) (idle : s.mode = .idle) : HostEffect s (setKey j v s)
  | blk (j : Fin 5) (v : Word) (idle : s.mode = .idle) : HostEffect s (setBlk j v s)
  | accept (p : Command) (idle : s.mode = .idle) (ready : p = .expand ∨ s.keyrdy = true) :
      HostEffect s (Machine.accept p s)

theorem writeCommand_effect (p : Command) (s : State) : HostEffect s (writeCommand p s) := by
  unfold writeCommand
  split
  · exact .error _
  · next idle =>
    split
    · exact .error _
    · next ready =>
      refine .accept p (by simpa using idle) ?_
      by_cases hp : p = .expand
      · exact .inl hp
      · exact .inr (by simpa [hp] using ready)

theorem writeCmd_effect (v : Word) (s : State) : HostEffect s (writeCmd v s) := by
  unfold writeCmd
  split
  · exact .error _
  · exact writeCommand_effect _ s

theorem memWrite_effect (a : SlotAddr) (v : Word) (s : State) : HostEffect s (memWrite a v s) := by
  unfold memWrite
  split
  · exact writeCmd_effect v s
  · exact .status v
  · exact .irqen v
  · next j _ =>
    unfold writeKey
    split
    · next idle => exact .key j v idle
    · exact .error _
  · next j _ =>
    unfold writeBlk
    split
    · next idle => exact .blk j v idle
    · exact .error _
  · exact .none
  · exact .none

/-- While a command runs, a host write touches nothing but DONE, the error record and IRQEN. -/
theorem HostEffect.busy_frame {s w : State} (h : s.mode ≠ .idle) (e : HostEffect s w) :
    w.mode = s.mode ∧ w.ctr = s.ctr ∧ w.ik = s.ik ∧ w.blk = s.blk ∧ w.keyrdy = s.keyrdy := by
  cases e <;> first | contradiction | simp [writeStatus]
  all_goals (split <;> split <;> simp)

/-- No host write touches the subkey store, the window, the host's inputs, the last `rdata` or the draws. -/
theorem HostEffect.frame {s w : State} (e : HostEffect s w) :
    w.ek = s.ek ∧ w.win = s.win ∧ w.inputs = s.inputs ∧ w.rdata = s.rdata ∧ w.draws = s.draws := by
  cases e <;> simp [writeStatus]
  all_goals (split <;> split <;> simp)

theorem writeStatus_done (v : Word) (s : State) : (writeStatus v s).done = (s.done && !clearsDone v) := by
  unfold writeStatus; cases clearsDone v <;> cases clearsErr v <;> simp

theorem writeStatus_err (v : Word) (s : State) : (writeStatus v s).err = (s.err && !clearsErr v) := by
  unfold writeStatus; cases clearsDone v <;> cases clearsErr v <;> simp

theorem writeStatus_errcode (v : Word) (s : State) :
    (writeStatus v s).errcode = if clearsErr v then 0#4 else s.errcode := by
  unfold writeStatus; cases clearsDone v <;> cases clearsErr v <;> simp

/-- A STATUS write as one record update. -/
theorem writeStatus_eq (v : Word) (s : State) :
    writeStatus v s = { s with
      done := s.done && !clearsDone v
      err := s.err && !clearsErr v
      errcode := if clearsErr v then 0#4 else s.errcode } := by
  unfold writeStatus; cases clearsDone v <;> cases clearsErr v <;> simp [clearDone, clearError]

/-! ### The round controller's part of an edge -/

theorem advance_below {p : State} (h : p.ctr.val < 79) (fin : State → State) (s : State) :
    advance p fin s = { s with ctr := ⟨p.ctr.val + 1, by omega⟩ } := by
  unfold advance; rw [dif_pos (by omega)]

theorem advance_last {p : State} (h : p.ctr.val = 79) (fin : State → State) (s : State) : advance p fin s = fin s := by
  unfold advance; rw [dif_neg (by omega)]

theorem fsmUpdate_idle {p : State} (h : p.mode = .idle) (s : State) : fsmUpdate p s = s := by
  unfold fsmUpdate; rw [h]

theorem fsmUpdate_expand {p : State} (h : p.mode = .expand) (s : State) :
    fsmUpdate p s = advance p completeExpand (expanderStep p s) := by
  unfold fsmUpdate; rw [h]

theorem fsmUpdate_encrypt {p : State} (h : p.mode = .encrypt) (s : State) :
    fsmUpdate p s = advance p complete (encryptStep p s) := by
  unfold fsmUpdate; rw [h]

theorem fsmUpdate_decrypt {p : State} (h : p.mode = .decrypt) (s : State) :
    fsmUpdate p s = advance p complete (decryptStep p s) := by
  unfold fsmUpdate; rw [h]

/-- What the round controller's part of an edge can be. -/
theorem fsmUpdate_cases (p s : State) :
    (p.mode = .idle ∧ fsmUpdate p s = s) ∨
    (p.mode = .expand ∧ p.ctr.val < 79 ∧
      ∃ h, fsmUpdate p s = { expanderStep p s with ctr := ⟨p.ctr.val + 1, h⟩ }) ∨
    (p.mode = .expand ∧ p.ctr.val = 79 ∧ fsmUpdate p s = completeExpand (expanderStep p s)) ∨
    (p.mode = .encrypt ∧ p.ctr.val < 79 ∧
      ∃ h, fsmUpdate p s = { encryptStep p s with ctr := ⟨p.ctr.val + 1, h⟩ }) ∨
    (p.mode = .encrypt ∧ p.ctr.val = 79 ∧ fsmUpdate p s = complete (encryptStep p s)) ∨
    (p.mode = .decrypt ∧ p.ctr.val < 79 ∧
      ∃ h, fsmUpdate p s = { decryptStep p s with ctr := ⟨p.ctr.val + 1, h⟩ }) ∨
    (p.mode = .decrypt ∧ p.ctr.val = 79 ∧ fsmUpdate p s = complete (decryptStep p s)) := by
  have bound := p.ctr.isLt
  by_cases below : p.ctr.val < 79
  · cases h : p.mode
    · exact .inl ⟨rfl, fsmUpdate_idle h s⟩
    · exact .inr (.inl ⟨rfl, below, by omega, by rw [fsmUpdate_expand h, advance_below below]⟩)
    · exact .inr (.inr (.inr (.inl ⟨rfl, below, by omega, by rw [fsmUpdate_encrypt h, advance_below below]⟩)))
    · exact .inr (.inr (.inr (.inr (.inr (.inl
        ⟨rfl, below, by omega, by rw [fsmUpdate_decrypt h, advance_below below]⟩)))))
  · have last : p.ctr.val = 79 := by omega
    cases h : p.mode
    · exact .inl ⟨rfl, fsmUpdate_idle h s⟩
    · exact .inr (.inr (.inl ⟨rfl, last, by rw [fsmUpdate_expand h, advance_last last]⟩))
    · exact .inr (.inr (.inr (.inr (.inl ⟨rfl, last, by rw [fsmUpdate_encrypt h, advance_last last]⟩))))
    · exact .inr (.inr (.inr (.inr (.inr (.inr ⟨rfl, last, by rw [fsmUpdate_decrypt h, advance_last last]⟩)))))

/-- The round controller leaves the key, the error record, the enables and the host's inputs to the host write. -/
theorem fsmUpdate_frame (p s : State) :
    (fsmUpdate p s).ik = s.ik ∧ (fsmUpdate p s).err = s.err ∧ (fsmUpdate p s).errcode = s.errcode ∧
    (fsmUpdate p s).irqen = s.irqen ∧ (fsmUpdate p s).inputs = s.inputs := by
  rcases fsmUpdate_cases p s with ⟨_, e⟩ | ⟨_, _, _, e⟩ | ⟨_, _, e⟩ | ⟨_, _, _, e⟩ | ⟨_, _, e⟩ | ⟨_, _, _, e⟩ | ⟨_, _, e⟩
  all_goals simp [e]

/-- The round controller's part does not look at the error record. -/
theorem fsmUpdate_raiseError (c : ErrorCode) (p s : State) :
    fsmUpdate p (raiseError c s) = { fsmUpdate p s with
      err := true
      errcode := if s.err then s.errcode else errorNumber c } := by
  cases h : p.mode
  · rw [fsmUpdate_idle h, fsmUpdate_idle h, raiseError]
  · rw [fsmUpdate_expand h, fsmUpdate_expand h]; unfold advance; split <;> rfl
  · rw [fsmUpdate_encrypt h, fsmUpdate_encrypt h]; unfold advance; split <;> rfl
  · rw [fsmUpdate_decrypt h, fsmUpdate_decrypt h]; unfold advance; split <;> rfl

/-! ### One edge -/

/-- In IDLE the edge is the host write alone. -/
theorem clockEdge_idle {s : State} (h : s.mode = .idle) (a : SlotAddr) (w : State) :
    clockEdge a s w = { w with rdata := memRead s a } := by
  rw [clockEdge, fsmUpdate_idle h]

/-- The edge of a refused write is that of a read of the same slot but for the error record. -/
theorem clockEdge_raiseError (a : SlotAddr) (c : ErrorCode) (s : State) :
    clockEdge a s (raiseError c s) = { clockEdge a s s with
      err := true
      errcode := if s.err then s.errcode else errorNumber c } := by
  rw [clockEdge, fsmUpdate_raiseError, clockEdge]


/-- The slot a bus cycle puts on the address port. -/
def busSlot : Instr → SlotAddr
  | .expand => 0x00#8
  | .encrypt => 0x00#8
  | .decrypt => 0x00#8
  | .rd a => a
  | .wr a _ => a

/-- The host write's part of an instruction's edge. -/
def hostPart : Instr → State → State
  | .expand => writeCommand .expand
  | .encrypt => writeCommand .encrypt
  | .decrypt => writeCommand .decrypt
  | .rd _ => id
  | .wr a v => memWrite a v

/-- Every instruction is one clock edge: its host part, then the round controller's. -/
theorem exec_eq_clockEdge (i : Instr) (s : State) : exec i s = .next (clockEdge (busSlot i) s (hostPart i s)) := by
  cases i <;> rfl

theorem hostPart_effect (i : Instr) (s : State) : HostEffect s (hostPart i s) := by
  cases i
  case rd => exact .none
  case wr a v => exact memWrite_effect a v s
  all_goals exact writeCommand_effect _ s

/-- What a step can do: a reset edge, or the clock edge of the instruction on the ports. -/
theorem step_cases {s t : State} (h : step s = .next t) :
    ((presented s).rst = true ∧ t = resetEdge (presented s).addr (takeInput s)) ∨
    ((presented s).rst = false ∧
      t = clockEdge (busSlot (decodePorts (presented s))) (takeInput s)
        (hostPart (decodePorts (presented s)) (takeInput s))) := by
  unfold step at h
  split at h
  · next r => exact .inl ⟨r, by cases h; rfl⟩
  · next r =>
    rw [exec_eq_clockEdge] at h
    exact .inr ⟨by simpa using r, by cases h; rfl⟩

end Sys2Proof.Machine
end

