-- ==== Sys2Proof/Laws/Cycles.lean ====
section
/-! SUPPORT. Running for several cycles, one cycle at a time. -/

namespace Sys2Proof.Machine

@[simp] theorem cycles_zero (s : State) : cycles 0 s = .next s := rfl

/-- The first of `n + 1` steps of any machine, then the rest. -/
theorem core_run_succ (M : Host.Core) (n : Nat) (s t : M.State) (h : M.step s = .next t) :
    M.run (n + 1) s = M.run n t := by
  rw [Host.Core.run, h]

/-- The first of `n + 1` cycles, then the rest. -/
theorem cycles_succ {s t : State} (n : Nat) (h : step s = .next t) : cycles (n + 1) s = cycles n t := by
  exact core_run_succ Sys2Proof.core n s t h

/-- No reset in `n + 1` cycles: none in the first. -/
theorem NoReset.first {n : Nat} {s : State} (h : NoReset (n + 1) s) : (presented s).rst = false := by
  unfold presented
  cases inputs : s.inputs with
  | nil => rfl
  | cons p rest => exact h p (by simp [inputs])

/-- No reset in `n + 1` cycles: none in the `n` after the first. -/
theorem NoReset.rest {n : Nat} {s t : State} (h : NoReset (n + 1) s) (taken : t.inputs = s.inputs.tail) :
    NoReset n t := by
  intro p present
  apply h p
  rw [taken] at present
  cases inputs : s.inputs with
  | nil => simp [inputs] at present
  | cons q rest => simp [inputs] at present ⊢; exact .inr present

/-- A cycle without reset is the clock edge of some host effect. -/
theorem step_clockEdge {s : State} (h : (presented s).rst = false) :
    ∃ a w, HostEffect (takeInput s) w ∧ step s = .next (clockEdge a (takeInput s) w) := by
  refine ⟨busSlot (decodePorts (presented s)), _, hostPart_effect (decodePorts (presented s)) (takeInput s), ?_⟩
  simp [step, h, exec_eq_clockEdge]

end Sys2Proof.Machine
end

