-- ==== Sys2Proof/Laws/PerInstr.lean ====
section
/-! SUPPORT. Statements made instruction by instruction, about an instruction as syntax. -/

namespace Sys2Proof.Laws

/-- The encoded control word drives the write strobe for every instruction but a read, and a command addresses CMD
(30_encoding.md R85, R89). -/
def Strobe.Statement (i : Instr) : Prop :=
  match i with
  | .expand => (encode .expand).control = controlWord true 0x00#8
  | .encrypt => (encode .encrypt).control = controlWord true 0x00#8
  | .decrypt => (encode .decrypt).control = controlWord true 0x00#8
  | .rd a => controlWe (encode (.rd a)).control = false
  | .wr a v => controlWe (encode (.wr a v)).control = true

theorem Strobe.expand : Strobe.Statement .expand := rfl

theorem Strobe.encrypt : Strobe.Statement .encrypt := rfl

theorem Strobe.decrypt : Strobe.Statement .decrypt := rfl

theorem Strobe.rd (a : SlotAddr) : Strobe.Statement (.rd a) := by
  simp only [Strobe.Statement, encode, controlWe, controlWord]; revert a; decide

theorem Strobe.wr (a : SlotAddr) (v : Word) : Strobe.Statement (.wr a v) := by
  simp only [Strobe.Statement, encode, controlWe, controlWord]; revert a; decide

end Sys2Proof.Laws
end

