-- ==== Sys2Proof/Tests/Slice0.lean ====
section
/-! SUPPORT. Tests. Expected values are those of spec/95_test_vectors.md, or written out by hand from the rule a test names.
The theorems named `witness_…` show, for a statement with hypotheses, data that meet them all. -/

namespace Sys2Proof.Tests

open Sys2Proof.Machine

/-! ### Helpers -/

/-- The key IK2 of 95_test_vectors.md. -/
def ik2 : Vector Word 4 := #v[0x01234567#32, 0x89ABCDEF#32, 0xFEDCBA98#32, 0x76543210#32]

/-- The block s0 of 95_test_vectors.md. -/
def s0 : Block := ⟨0x67452301#32, 0xEFCDAB89#32, 0x98BADCFE#32, 0x10325476#32, 0xC3D2E1F0#32⟩

/-- The all-ones block O of 95_test_vectors.md. -/
def onesBlock : Block := ⟨0xFFFFFFFF#32, 0xFFFFFFFF#32, 0xFFFFFFFF#32, 0xFFFFFFFF#32, 0xFFFFFFFF#32⟩

/-- The all-zero block Z of 95_test_vectors.md. -/
def zeroBlock : Block := ⟨0#32, 0#32, 0#32, 0#32, 0#32⟩

/-- The subkeys of the all-zero key as V2.4.2 lists them. -/
def zeroKeySchedule : Vector Word 80 :=
  Vector.ofFn fun t : Fin 80 =>
    if t.val < 20 then 0x5A827999#32 else if t.val < 40 then 0x6ED9EBA1#32 else if t.val < 60 then 0x8F1BBCDC#32
    else 0xCA62C1D6#32

/-- The idle block with IK2 expanded and s0 loaded. -/
def keyed : State := { State.reset with ik := ik2, ek := expand ik2, blk := s0, keyrdy := true }

/-- The block with command `m` running at step `c`. -/
def running (m : Mode) (c : Fin 80) : State := { keyed with mode := m, ctr := c, keyrdy := m != .expand }

/-- The state after an instruction. -/
def after (i : Instr) (s : State) : State :=
  match exec i s with
  | .next t => t
  | .fault _ => s
  | .refused _ => s

/-- The state after a step. -/
def afterStep (s : State) : State :=
  match step s with
  | .next t => t
  | .fault _ => s
  | .refused _ => s

/-- A state with these cycles presented by the host. -/
def presenting (ports : List PortSample) (s : State) : State := { s with inputs := ports }

/-! ### Well-formedness: the one check refuses each of the three spellings (log 8) -/

theorem test_wellFormed_refuses_expand_spelling : WellFormed (.wr 0x00#8 0x00000001#32) = false := by decide
theorem test_wellFormed_refuses_encrypt_spelling : WellFormed (.wr 0x00#8 0x00000002#32) = false := by decide
theorem test_wellFormed_refuses_decrypt_spelling : WellFormed (.wr 0x00#8 0x00000003#32) = false := by decide
theorem test_wellFormed_keeps_illegal_word : WellFormed (.wr 0x00#8 0x00000004#32) = true := by decide

/-! ### Decoding: words written out bit by bit (30_encoding.md R81, R82, R85; V2.7) -/

theorem test_decode_expand : decodeTableWord 32 0b00000000000000000000000000000001 = some .expand := by decide
theorem test_decode_encrypt : decodeTableWord 32 0b00000000000000000000000000000010 = some .encrypt := by decide
theorem test_decode_decrypt : decodeTableWord 32 0b00000000000000000000000000000011 = some .decrypt := by decide
/-- RD EK79 = 0_11001111 (V2.7). -/
theorem test_decode_rd : decodeTableWord 16 0b011001111 = some (.rd 0xCF#8) := by decide
/-- WR BLK4 = 1_00001100 (V2.7), no data bits given. -/
theorem test_decode_wr : decodeTableWord 16 0b100001100 = some (.wr 0x0C#8 0x00000000#32) := by decide
/-- WR KEY3 = 1_00000111 (V2.7) with the data word of P1's cycle c003. -/
theorem test_decode_wr_data : decode ⟨0b100000111#9, 0x76543210#32⟩ = .wr 0x07#8 0x76543210#32 := by decide
/-- WR CMD = 1_00000000 with EXPAND's word is EXPAND (30_encoding.md R89). -/
theorem test_decode_bus_command : decode ⟨0b100000000#9, 0x00000001#32⟩ = .expand := by decide
/-- Illegal command words (V2.7). -/
theorem test_decode_refuses_illegal_words :
    decodeTableWord 32 0x00 = none ∧ decodeTableWord 32 0x04 = none ∧ decodeTableWord 32 0x12 = none ∧
    decodeTableWord 32 0x80000001 = none := by decide
/-- No line exists at bit 9 (log 9). -/
theorem test_decode_refuses_stray_bit : decodeTableWord 16 0x200 = none := by decide

/-! ### The step from reset runs the instruction presented -/

theorem test_step_runs_expand :
    (afterStep (State.reset.withFetchWord 32 1)).mode = .expand := by decide
theorem test_step_runs_illegal_write :
    statusWord (afterStep (State.reset.withFetchWord 16 0x100)) = 0x00000018#32 := by decide

/-! ### One step of each instruction (V2.7, V2.8, P3) -/

theorem test_expand_accepted : statusWord (after .expand State.reset) = 0x00000101#32 := by decide
theorem test_expand_busy : statusWord (after .expand (running .expand 5)) = 0x00000129#32 := by decide
theorem test_encrypt_accepted : statusWord (after .encrypt keyed) = 0x00000205#32 := by decide
theorem test_encrypt_no_key : statusWord (after .encrypt State.reset) = 0x00000038#32 := by decide
theorem test_decrypt_accepted : statusWord (after .decrypt keyed) = 0x00000305#32 := by decide
theorem test_decrypt_no_key : statusWord (after .decrypt State.reset) = 0x00000038#32 := by decide
/-- RD BLK0 is masked while ENCRYPT runs and shows the register while EXPAND runs (V2.8). -/
theorem test_rd_blk_mask :
    (after (.rd 0x08#8) (running .encrypt 3)).rdata = 0x00000000#32 ∧
    (after (.rd 0x08#8) (running .expand 3)).rdata = 0x67452301#32 := by decide +kernel
/-- RD EK79 (V2.4.1, P1's cycle c089). -/
theorem test_rd_ek : (after (.rd 0xCF#8) keyed).rdata = 0x25113A62#32 := by decide +kernel
/-- WR KEY2 in IDLE clears KEYRDY (V2.8). -/
theorem test_wr_key :
    (after (.wr 0x06#8 0xDEADBEEF#32) keyed).ik[2] = 0xDEADBEEF#32 ∧
    (after (.wr 0x06#8 0xDEADBEEF#32) keyed).keyrdy = false := by decide
/-- WR STATUS at the completing edge leaves DONE set (V2.8). -/
theorem test_wr_status_at_completion :
    (after (.wr 0x01#8 0x00000002#32) (running .encrypt 79)).done = true := by decide +kernel
/-- The first step of the encryption of s0 under IK2 (V2.5.7, t = 0). -/
theorem test_encrypt_first_step : (after (.rd 0x00#8) (running .encrypt 0)).blk =
    ⟨0xA0D7DE1A#32, 0x67452301#32, 0x7BF36AE2#32, 0x98BADCFE#32, 0x10325476#32⟩ := by decide +kernel
/-- The last step of the encryption of s0 under IK2 (V2.5.7, t = 78 and 79). -/
theorem test_encrypt_last_step :
    (after (.rd 0x00#8) { running .encrypt 79 with
      blk := ⟨0xB6A6DF52#32, 0xBA141202#32, 0x71C1CCBC#32, 0x2CF66CC2#32, 0x2E19275D#32⟩ }).blk =
    ⟨0x0F29FE91#32, 0xB6A6DF52#32, 0xAE850480#32, 0x71C1CCBC#32, 0x2CF66CC2#32⟩ := by decide +kernel
/-- The first decryption iteration undoes the last encryption round (41_round_functions.md R131; V2.5.7). -/
theorem test_decrypt_first_step :
    (after (.rd 0x00#8) { running .decrypt 0 with
      blk := ⟨0x0F29FE91#32, 0xB6A6DF52#32, 0xAE850480#32, 0x71C1CCBC#32, 0x2CF66CC2#32⟩ }).blk =
    ⟨0xB6A6DF52#32, 0xBA141202#32, 0x71C1CCBC#32, 0x2CF66CC2#32, 0x2E19275D#32⟩ := by decide +kernel
/-- The expander's step for key word 16 of IK2 (V2.4.1): after 16 steps the window holds the key four times. -/
theorem test_expand_step_16 :
    let s := { running .expand 16 with win := Vector.ofFn fun j : Fin 16 => raw ik2 j.val }
    (after (.rd 0x00#8) s).ek[16] = 0x49716887#32 ∧ (after (.rd 0x00#8) s).win[15] = 0xEEEEEEEE#32 := by
  decide +kernel

/-! ### The datapath (V2.1 to V2.5) -/

theorem test_add32 :
    add32 0xFFFFFFFF#32 0x00000001#32 = 0x00000000#32 ∧ add32 0x5A827999#32 0xCA62C1D6#32 = 0x24E53B6F#32 := by decide
theorem test_sub32 :
    sub32 0x00000000#32 0x00000001#32 = 0xFFFFFFFF#32 ∧ sub32 0x5A827999#32 0x6ED9EBA1#32 = 0xEBA88DF8#32 := by decide
theorem test_rotl :
    rotl 0x9ABCDEF0#32 1 = 0x3579BDE1#32 ∧ rotl 0xC0000001#32 2 = 0x00000007#32 ∧
    rotl 0x12345678#32 5 = 0x468ACF02#32 ∧ rotl 0x12345678#32 30 = 0x048D159E#32 := by decide
theorem test_round_functions :
    f0 0xFFFF0000#32 0xFF00FF00#32 0xF0F0F0F0#32 = 0xFF00F0F0#32 ∧
    f1 0xFFFF0000#32 0xFF00FF00#32 0xF0F0F0F0#32 = 0xF00F0FF0#32 ∧
    f2 0xFFFF0000#32 0xFF00FF00#32 0xF0F0F0F0#32 = 0xFFF0F000#32 ∧
    f3 0xFFFF0000#32 0xFF00FF00#32 0xF0F0F0F0#32 = 0xF00F0FF0#32 := by decide
theorem test_fwdStep :
    fwdStep s0 (rf 1) = ⟨0x13BC651D#32, 0x67452301#32, 0x7BF36AE2#32, 0x98BADCFE#32, 0x10325476#32⟩ ∧
    fwdStep onesBlock (rf 0) = ⟨0xFFFFFFFD#32, 0xFFFFFFFF#32, 0xFFFFFFFF#32, 0xFFFFFFFF#32, 0xFFFFFFFF#32⟩ := by decide
theorem test_invStep :
    invStep s0 (rf 2) = ⟨0xEFCDAB89#32, 0x62EB73FA#32, 0x10325476#32, 0xC3D2E1F0#32, 0x2A9D3FD2#32⟩ ∧
    invStep onesBlock (rf 0) = ⟨0xFFFFFFFF#32, 0xFFFFFFFF#32, 0xFFFFFFFF#32, 0xFFFFFFFF#32, 0x00000001#32⟩ := by decide
theorem test_key_mixing :
    (keyAdd onesBlock 0x5A827999#32).a = 0x5A827998#32 ∧ (keySub zeroBlock 0x00000001#32).a = 0xFFFFFFFF#32 := by decide
/-- V1.8: the selects at the ends of the quartiles. -/
theorem test_selects :
    encSelect 0 = 0 ∧ encSelect 19 = 0 ∧ encSelect 20 = 1 ∧ encSelect 79 = 3 ∧
    decSelect 0 = 3 ∧ decSelect 19 = 3 ∧ decSelect 20 = 2 ∧ decSelect 79 = 0 := by decide
theorem test_raw_words :
    raw ik2 17 = 0x11111111#32 ∧ raw ik2 19 = 0xCE8A4602#32 ∧ raw ik2 79 = 0x5AAE788C#32 := by decide +kernel
theorem test_subkeys :
    (expand ik2)[19] = 0x290CBF9B#32 ∧ (expand ik2)[20] = 0x4E7542B4#32 ∧ (expand ik2)[40] = 0x1D807A33#32 := by
  decide +kernel
theorem test_encryptBlock : encryptBlock zeroKeySchedule zeroBlock =
    ⟨0x9E1547ED#32, 0x57EC91C2#32, 0x30FA8BC8#32, 0xC7785A54#32, 0xA7EFA5E3#32⟩ := by decide +kernel
theorem test_decryptBlock : decryptBlock zeroKeySchedule zeroBlock =
    ⟨0x2328FAD3#32, 0x75109B40#32, 0x3F121481#32, 0x02E1DEF6#32, 0xCFD74E98#32⟩ := by decide +kernel

/-! ### The host's side (V1.1, V1.9, V2.6) -/

theorem test_pad : pad [0x41#8, 0x42#8] = [0x41#8, 0x42#8] ++ List.replicate 18 0x00#8 := by decide
theorem test_unpack :
    unpack [0x41#8, 0x42#8, 0x00#8, 0x00#8] = [0x41420000#32] ∧
    unpack [0x13#8, 0x12#8, 0x11#8, 0x10#8] = [0x13121110#32] := by decide
theorem test_pack : pack [0x01234567#32] = [0x01#8, 0x23#8, 0x45#8, 0x67#8] := by decide
theorem test_decryptBytes_lengths :
    decryptBytes (List.replicate 19 0x00#8) ik2 = .error .invalidCiphertextLength ∧
    decryptBytes [] ik2 = .ok [] := by decide +kernel
theorem test_slotOfByteAddress : slotOfByteAddress 0x33F#10 = 0xCF#8 := by decide

/-! ### Witnesses: data that meet the hypotheses of the statements -/

theorem witness_DecodeEncodeRoundTrip :
    WellFormed .expand = true ∧ WellFormed .encrypt = true ∧ WellFormed .decrypt = true ∧
    WellFormed (.rd 0xFF#8) = true ∧ WellFormed (.wr 0x00#8 0x00000000#32) = true ∧
    WellFormed (.wr 0xFF#8 0x00000001#32) = true := by decide

theorem witness_EncodeDecodeRoundTrip :
    controlWe 0x1FF#9 = true ∧ controlWe 0x100#9 = true ∧ controlWe 0x0FF#9 = false ∧ controlWe 0x000#9 = false := by
  decide

theorem witness_StepRunsDecodedInstruction :
    (presented (presenting [⟨false, true, 0x00#8, 0x00000002#32⟩] keyed)).rst = false ∧
    decodePorts (presented (presenting [⟨false, true, 0x00#8, 0x00000002#32⟩] keyed)) = .encrypt := by decide

theorem witness_ResetEdgeFromAnyState :
    (presented (presenting [⟨true, true, 0x00#8, 0x00000001#32⟩] (running .encrypt 40))).rst = true := by decide

theorem witness_AcceptedCommandsStart : State.reset.mode = .idle ∧ keyed.mode = .idle ∧ keyed.keyrdy = true := by decide

theorem witness_IllegalCommandRefused :
    (0x80000001#32 ≠ 0x00000001#32 ∧ 0x80000001#32 ≠ 0x00000002#32 ∧ 0x80000001#32 ≠ 0x00000003#32) ∧
    (0x00000004#32 ≠ 0x00000001#32 ∧ 0x00000004#32 ≠ 0x00000002#32 ∧ 0x00000004#32 ≠ 0x00000003#32) ∧
    State.reset.mode = .idle ∧ State.reset.keyrdy = false ∧ State.reset.done = false ∧ State.reset.err = false := by
  decide

/-- One word for each branch of the checks. -/
theorem witness_CmdWriteChecksInOrder :
    (0x00000012#32).extractLsb' 4 28 ≠ 0#28 ∧
    ((0x00000001#32).extractLsb' 4 28 = 0#28 ∧ (0x00000001#32).extractLsb' 0 4 = 0x1#4 ∧ (running .expand 79).mode ≠ .idle) ∧
    ((0x00000003#32).extractLsb' 0 4 = 0x3#4 ∧ State.reset.mode = .idle ∧ State.reset.keyrdy = false) ∧
    ((0x00000002#32).extractLsb' 0 4 = 0x2#4 ∧ keyed.mode = .idle ∧ keyed.keyrdy = true) := by decide

theorem witness_BusyWritesRefused :
    (running .expand 0).mode ≠ .idle ∧ (running .decrypt 79).mode ≠ .idle ∧
    (0x04 ≤ (0x04#8).toNat ∧ (0x04#8).toNat ≤ 0x0C) ∧ (0x04 ≤ (0x0C#8).toNat ∧ (0x0C#8).toNat ≤ 0x0C) := by decide

theorem witness_NoKeyRefused : State.reset.mode = .idle ∧ State.reset.keyrdy = false := by decide

theorem witness_FirstErrorKept :
    (after .encrypt State.reset).err = true ∧ (0x00000002#32).getLsbD 3 = false ∧
    (∀ v : Word, Instr.wr 0x01#8 0x00000002#32 = .wr 0x01#8 v → v.getLsbD 3 = false) := by
  refine ⟨by decide, by decide, fun v h => ?_⟩
  cases h; decide

theorem witness_ReadValuePerSlot :
    (running .encrypt 0).mode = .encrypt ∧ (running .decrypt 79).mode = .decrypt ∧ keyed.mode = .idle ∧
    keyed.keyrdy = true ∧ State.reset.keyrdy = false ∧
    0x0D ≤ (0x0D#8).toNat ∧ (0x7F#8).toNat ≤ 0x7F ∧ 0xD0 ≤ (0xD0#8).toNat ∧ 0xD0 ≤ (0xFF#8).toNat := by decide

theorem witness_MaskedReads :
    (running .encrypt 79).mode = .encrypt ∧ (running .decrypt 0).mode = .decrypt ∧ (running .expand 79).keyrdy = false := by
  decide

theorem witness_ReadInIdleChangesNothing : keyed.mode = .idle ∧ State.reset.mode = .idle := by decide

theorem witness_KeyWriteInIdle :
    keyed.mode = .idle ∧ (after (.wr 0x04#8 0x00000001#32) keyed).ik[0] = 0x00000001#32 ∧
    (after (.wr 0x07#8 0x00000001#32) keyed).ik[3] = 0x00000001#32 := by decide

theorem witness_BlkWriteInIdle :
    keyed.mode = .idle ∧ (after (.wr 0x0C#8 0x00000001#32) keyed).blk = { s0 with e := 0x00000001#32 } := by decide

/-- The completing edge and the one before it. -/
theorem witness_StatusWriteClears :
    (running .encrypt 79).mode ≠ .idle ∧ (running .encrypt 79).ctr.val = 79 ∧ (running .encrypt 78).ctr.val ≠ 79 := by
  decide

theorem witness_ReadOnlyAndReservedWritesIgnored :
    0x0D ≤ (0x0D#8).toNat ∧ 0x0D ≤ (0x7F#8).toNat ∧ 0x0D ≤ (0x80#8).toNat ∧ 0x0D ≤ (0xCF#8).toNat ∧
    0x0D ≤ (0xD0#8).toNat ∧ 0x0D ≤ (0xFF#8).toNat := by decide

/-- A witness for each clause, in order: completion, acceptance, a clear, and a cycle that keeps DONE. -/
theorem witness_DoneChangesOnlyAsStated :
    ((running .encrypt 79).mode ≠ .idle ∧ (running .encrypt 79).ctr.val = 79) ∧
    (keyed.mode = .idle ∧ (after .encrypt keyed).mode ≠ .idle) ∧
    ((running .encrypt 78).ctr.val ≠ 79 ∧ (0x00000002#32).getLsbD 1 = true) ∧
    ((running .encrypt 78).ctr.val ≠ 79 ∧ (after (.rd 0x01#8) (running .encrypt 78)).mode = (running .encrypt 78).mode) := by
  decide +kernel

/-- A witness for each clause, in order: completion, acceptance, a key write, and a cycle that keeps KEYRDY. -/
theorem witness_KeyReadyChangesOnlyAsStated :
    ((running .expand 79).mode = .expand ∧ (running .expand 79).ctr.val = 79) ∧
    (keyed.mode = .idle ∧ (after .expand keyed).mode = .expand) ∧
    (0x04 ≤ (0x04#8).toNat ∧ (0x07#8).toNat ≤ 0x07) ∧
    (¬((running .expand 78).mode = .expand ∧ (running .expand 78).ctr.val = 79) ∧
      ¬((running .expand 78).mode = .idle ∧ (after (.rd 0x01#8) (running .expand 78)).mode = .expand) ∧
      (running .expand 78).mode ≠ .idle) := by decide +kernel

/-- Addresses next to the key and block slots; a busy cycle; an EXPAND cycle. -/
theorem witness_KeyAndBlockFrames :
    (running .encrypt 0).mode ≠ .idle ∧ ((0x03#8).toNat < 0x04 ∧ 0x07 < (0x08#8).toNat) ∧
    (running .expand 79).mode = .expand ∧ (keyed.mode = .idle ∧ (0x07#8).toNat < 0x08 ∧ 0x0C < (0x0D#8).toNat) := by
  decide

theorem witness_SubkeysReadOnlyWhileCiphering :
    (running .encrypt 79).mode = .encrypt ∧ (running .decrypt 0).mode = .decrypt := by decide

theorem witness_StoreKeptOutsideExpand : keyed.mode ≠ .expand ∧ (running .encrypt 79).mode ≠ .expand := by decide

theorem witness_RunningCommandAdvances :
    (running .expand 78).mode ≠ .idle ∧ (running .expand 78).ctr.val < 79 ∧ (running .expand 79).mode ≠ .idle ∧
    (running .expand 79).ctr.val = 79 := by decide

theorem witness_EncryptStepPerEdge : (running .encrypt 0).mode = .encrypt ∧ (running .encrypt 79).mode = .encrypt := by
  decide

theorem witness_DecryptStepPerEdge : (running .decrypt 0).mode = .decrypt ∧ (running .decrypt 79).mode = .decrypt := by
  decide

theorem witness_ExpanderStepPerEdge :
    (running .expand 15).mode = .expand ∧ (running .expand 15).ctr.val < 16 ∧ ¬(running .expand 16).ctr.val < 16 ∧
    (running .expand 78).ctr.val < 79 ∧ (running .expand 79).mode = .expand := by decide

theorem witness_IrqFollowsStatus :
    (after (.wr 0x02#8 0x00000002#32) State.reset).mode = .idle ∧
    (after (.wr 0x02#8 0x00000002#32) State.reset).irqen.getLsbD 1 = true := by decide

/-- Rotation amounts and bits at both ends; the bit formula at them. -/
theorem witness_RotationBitFormula :
    0 < 32 ∧ 31 < 32 ∧ (rotl 0x00000001#32 31).getLsbD 31 = true ∧ (rotl 0x80000000#32 1).getLsbD 0 = true := by decide

theorem witness_RoundFunctionTruthTable :
    0 < 32 ∧ 31 < 32 ∧ (f2 0x80000000#32 0x80000000#32 0x00000000#32).getLsbD 31 = true := by decide

theorem witness_DecRoundUndoesEncRound :
    ((79 : Fin 80).val = 79 - (0 : Fin 80).val) ∧ ((0 : Fin 80).val = 79 - (79 : Fin 80).val) := by decide

theorem witness_RawWordRecurrence : 0 ≤ 15 ∧ 15 ≤ 15 ∧ 16 ≤ 16 ∧ raw ik2 15 = 0x76543210#32 ∧ raw ik2 16 = 0xEEEEEEEE#32 := by
  decide

/-- The ends of the quartiles. -/
theorem witness_SubkeyPerQuartile :
    (19 : Fin 80).val < 20 ∧ 20 ≤ (20 : Fin 80).val ∧ (39 : Fin 80).val < 40 ∧ 40 ≤ (40 : Fin 80).val ∧
    (59 : Fin 80).val < 60 ∧ 60 ≤ (60 : Fin 80).val ∧ 60 ≤ (79 : Fin 80).val := by decide

/-- A host that starts a command with `v` written to CMD, writes KEY0 while it runs and then has nothing to do. -/
def commandHost (v : Word) : List PortSample := [⟨false, true, 0x00#8, v⟩, ⟨false, true, 0x04#8, 0xFFFFFFFF#32⟩]

theorem witness_ExpandCommandFillsStore :
    (presenting (commandHost 0x00000001#32) keyed).mode = .idle ∧
    NoReset 81 (presenting (commandHost 0x00000001#32) keyed) ∧
    decodePorts (presented (presenting (commandHost 0x00000001#32) keyed)) = .expand := by
  unfold NoReset; decide

theorem witness_EncryptCommandTransformsBlock :
    (presenting (commandHost 0x00000002#32) keyed).mode = .idle ∧
    (presenting (commandHost 0x00000002#32) keyed).keyrdy = true ∧
    NoReset 81 (presenting (commandHost 0x00000002#32) keyed) ∧
    decodePorts (presented (presenting (commandHost 0x00000002#32) keyed)) = .encrypt := by
  unfold NoReset; decide

theorem witness_DecryptCommandTransformsBlock :
    (presenting (commandHost 0x00000003#32) keyed).mode = .idle ∧
    (presenting (commandHost 0x00000003#32) keyed).keyrdy = true ∧
    NoReset 81 (presenting (commandHost 0x00000003#32) keyed) ∧
    decodePorts (presented (presenting (commandHost 0x00000003#32) keyed)) = .decrypt := by
  unfold NoReset; decide

/-- The first, the last busy and the first free cycle. -/
theorem witness_CommandLatencyIs80 :
    (presenting (commandHost 0x00000002#32) keyed).mode = .idle ∧ keyed.keyrdy = true ∧
    decodePorts (presented (presenting (commandHost 0x00000002#32) keyed)) = Command.encrypt.instr ∧
    (1 ≤ 1 ∧ 1 ≤ 81 ∧ 80 ≤ 80 ∧ 81 ≤ 81) ∧
    NoReset 1 (presenting (commandHost 0x00000002#32) keyed) ∧
    NoReset 80 (presenting (commandHost 0x00000002#32) keyed) ∧
    NoReset 81 (presenting (commandHost 0x00000002#32) keyed) := by
  unfold NoReset; decide

theorem keyed_inv : Inv (presenting (commandHost 0x00000002#32) keyed) := by
  refine ⟨fun _ => rfl, ⟨fun _ => rfl, fun h => ?_⟩, ⟨fun _ => ⟨rfl, by decide⟩, fun _ => rfl⟩, fun h => ?_, fun h => ?_⟩
  · exact absurd h (by decide)
  · exact absurd h (by decide)
  · exact absurd h (by decide)

/-- The invariant holds before the step that accepts ENCRYPT, and the step answers a next state that runs it. -/
theorem witness_StepKeepsInvariant :
    Inv (presenting (commandHost 0x00000002#32) keyed) ∧
    ∃ t, step (presenting (commandHost 0x00000002#32) keyed) = .next t ∧ t.mode = .encrypt :=
  ⟨keyed_inv, _, rfl, rfl⟩

/-- The invariant holds in the middle of an encryption. -/
theorem witness_StepKeepsInvariant_running : Inv (running .encrypt 79) := by
  refine ⟨fun h => ?_, ⟨fun _ => rfl, fun h => ?_⟩, ⟨fun _ => ⟨rfl, by decide⟩, fun _ => rfl⟩, fun h => ?_, fun h => ?_⟩
  all_goals exact absurd h (by decide)

/-- Two reset states with different words where the spec leaves them open. -/
theorem witness_HostCannotSeeUnspecifiedWords :
    SameToHost State.reset
      { State.reset with
        ek := Vector.replicate 80 0xFFFFFFFF#32, win := Vector.replicate 16 0xFFFFFFFF#32, draws := 5 } := by
  constructor
  all_goals first | rfl | (intro h; exact absurd h (by decide))

/-- Two states in EXPAND at key word 1 that differ in the words not yet written. -/
theorem witness_HostCannotSeeUnspecifiedWords_running :
    SameToHost { running .expand 1 with win := (Vector.replicate 16 0#32).set 15 0x01234567#32 }
      { running .expand 1 with
        ek := (Vector.replicate 80 0xFFFFFFFF#32).set 0 (expand ik2)[0]
        win := (Vector.replicate 16 0xFFFFFFFF#32).set 15 0x01234567#32 } := by
  constructor
  case store => intro h; exact absurd h (by decide)
  case filled =>
    intro _ u h
    have zero : u = 0 := Fin.ext (by simp [running] at h; simp [h])
    subst zero
    rfl
  case window =>
    intro _ j h
    have last : j = 15 := Fin.ext (by have := j.isLt; simp [running] at h; simp; omega)
    subst last
    rfl
  all_goals rfl

theorem witness_PaddingRule : (List.replicate 20 (0x00#8 : Byte)).length % 20 = 0 := by decide

theorem witness_PackUnpackInverse : ([0x01#8, 0x02#8, 0x03#8, 0x04#8] : List Byte).length % 4 = 0 := by decide

theorem witness_PipelineLengths :
    (List.replicate 19 (0x00#8 : Byte)).length % 20 ≠ 0 ∧ (List.replicate 40 (0x00#8 : Byte)).length % 20 = 0 := by decide

theorem witness_EcbBlocksIndependent : (List.replicate 20 (0x41#8 : Byte)).length % 20 = 0 := by decide

end Sys2Proof.Tests
end

/-! The state family (10_state.md): what sets, clears and keeps STATUS.DONE, and the values right after reset. -/

namespace Sys2Proof.Machine

/-! ### DONE and the mode under the host write's part of an edge -/

theorem modeOf_ne_idle (p : Command) : modeOf p ≠ .idle := by
  cases p <;> simp [modeOf]

theorem writeStatus_mode (v : Word) (s : State) : (writeStatus v s).mode = s.mode := by
  rw [writeStatus_eq]

theorem hostPart_statusWrite (v : Word) (s : State) : hostPart (.wr 0x01#8 v) s = writeStatus v s :=
  memWrite_status (a := 0x01#8) (by decide) v s

/-- What a host write other than a STATUS write does to the mode and DONE: it is an acceptance in IDLE, or keeps both. -/
def AcceptsOrKeeps (s w : State) : Prop :=
  (∃ p, s.mode = .idle ∧ w = accept p s) ∨ (w.mode = s.mode ∧ w.done = s.done)

/-- A refused command keeps DONE (10_state.md R27, last sentence). -/
theorem writeCommand_acceptsOrKeeps (p : Command) (s : State) : AcceptsOrKeeps s (writeCommand p s) := by
  unfold writeCommand
  split
  · exact .inr ⟨rfl, rfl⟩
  · next notBusy =>
    split
    · exact .inr ⟨rfl, rfl⟩
    · exact .inl ⟨p, not_not.mp notBusy, rfl⟩

theorem writeCmd_acceptsOrKeeps (v : Word) (s : State) : AcceptsOrKeeps s (writeCmd v s) := by
  unfold writeCmd
  split
  · exact .inr ⟨rfl, rfl⟩
  · exact writeCommand_acceptsOrKeeps _ s

theorem writeKey_keeps_mode_done (j : Fin 4) (v : Word) (s : State) :
    (writeKey j v s).mode = s.mode ∧ (writeKey j v s).done = s.done := by
  unfold writeKey
  split <;> exact ⟨rfl, rfl⟩

theorem writeBlk_keeps_mode_done (j : Fin 5) (v : Word) (s : State) :
    (writeBlk j v s).mode = s.mode ∧ (writeBlk j v s).done = s.done := by
  unfold writeBlk
  split <;> exact ⟨rfl, rfl⟩

theorem memWrite_acceptsOrKeeps {a : SlotAddr} (notStatus : a ≠ 0x01#8) (v : Word) (s : State) :
    AcceptsOrKeeps s (memWrite a v s) := by
  cases slot : slotOf a with
  | cmd => rw [memWrite_cmd slot]; exact writeCmd_acceptsOrKeeps v s
  | status => exact absurd (addr_of_status slot) notStatus
  | irqen => rw [memWrite_irqen slot]; exact .inr ⟨rfl, rfl⟩
  | key j => rw [memWrite_key slot]; exact .inr (writeKey_keeps_mode_done j v s)
  | blk j => rw [memWrite_blk slot]; exact .inr (writeBlk_keeps_mode_done j v s)
  | ek t => rw [memWrite_ek slot]; exact .inr ⟨rfl, rfl⟩
  | reserved => rw [memWrite_reserved slot]; exact .inr ⟨rfl, rfl⟩

/-- The one case split behind R27: an instruction is a STATUS write, or its host part accepts a command or keeps DONE. -/
theorem statusWrite_or_acceptsOrKeeps (i : Instr) (s : State) :
    (∃ v, i = .wr 0x01#8 v) ∨ AcceptsOrKeeps s (hostPart i s) := by
  cases i with
  | expand => exact .inr (writeCommand_acceptsOrKeeps .expand s)
  | encrypt => exact .inr (writeCommand_acceptsOrKeeps .encrypt s)
  | decrypt => exact .inr (writeCommand_acceptsOrKeeps .decrypt s)
  | rd a => exact .inr (.inr ⟨rfl, rfl⟩)
  | wr a v =>
    by_cases status : a = 0x01#8
    · exact .inl ⟨v, by rw [status]⟩
    · exact .inr (memWrite_acceptsOrKeeps status v s)

/-- Only an acceptance changes the mode, so the host part that changes it leaves DONE clear. -/
theorem hostPart_done_of_mode_changed {i : Instr} {s : State} (changed : (hostPart i s).mode ≠ s.mode) :
    (hostPart i s).done = false := by
  rcases statusWrite_or_acceptsOrKeeps i s with ⟨v, rfl⟩ | ⟨p, _, accepted⟩ | ⟨kept, _⟩
  · exact absurd (by rw [hostPart_statusWrite, writeStatus_mode]) changed
  · rw [accepted, accept_done]
  · exact absurd kept changed

/-- With no STATUS write of bit 1 and no change of mode, the host part keeps DONE. -/
theorem hostPart_done_of_mode_kept {i : Instr} {s : State} (kept : (hostPart i s).mode = s.mode)
    (noClear : ∀ v : Word, i = .wr 0x01#8 v → v.getLsbD 1 = false) : (hostPart i s).done = s.done := by
  rcases statusWrite_or_acceptsOrKeeps i s with ⟨v, rfl⟩ | ⟨p, idle, accepted⟩ | ⟨_, same⟩
  · rw [hostPart_statusWrite, writeStatus_done, clearsDone, noClear v rfl, Bool.not_false, Bool.and_true]
  · rw [accepted, accept_mode, idle] at kept
    exact absurd kept (modeOf_ne_idle p)
  · exact same

/-! ### DONE and the mode under the round controller's part -/

/-- Completion sets DONE over whatever the host write of the same edge left (10_state.md R27, 60_exceptions.md R221). -/
theorem fsmUpdate_done_of_completes {p : State} (busy : p.mode ≠ .idle) (last : p.ctr.val = 79) (w : State) :
    (fsmUpdate p w).done = true := by
  cases mode : p.mode with
  | idle => exact absurd mode busy
  | expand => rw [fsmUpdate_expand mode, advance_last last, completeExpand_done]
  | encrypt => rw [fsmUpdate_encrypt mode, advance_last last, complete_done]
  | decrypt => rw [fsmUpdate_decrypt mode, advance_last last, complete_done]

/-- At an edge that completes no command the round controller leaves the mode and DONE to the host write. -/
theorem fsmUpdate_keeps_mode_done {p : State} (noCompletion : p.mode = .idle ∨ p.ctr.val ≠ 79) (w : State) :
    (fsmUpdate p w).mode = w.mode ∧ (fsmUpdate p w).done = w.done := by
  cases mode : p.mode with
  | idle => rw [fsmUpdate_idle mode]; exact ⟨rfl, rfl⟩
  | expand | encrypt | decrypt =>
    have below : p.ctr.val < 79 := by
      have bound := p.ctr.isLt
      simp only [mode, reduceCtorEq, false_or] at noCompletion
      omega
    simp [fsmUpdate_expand, fsmUpdate_encrypt, fsmUpdate_decrypt, mode, advance_below below]

/-- Settles O26: the round controller sets DONE at a completion; every other edge has the host part's mode and DONE. -/
theorem doneChangesOnlyAsStated : Obligations.DoneChangesOnlyAsStated := by
  intro i s
  refine ⟨_, exec_eq_clockEdge i s, ?completes, ?accepts, ?clears, ?keeps⟩ <;> rw [clockEdge_done]
  case completes => exact fun busy last => fsmUpdate_done_of_completes busy last _
  case accepts =>
    intro idle started
    rw [clockEdge_mode, fsmUpdate_idle idle] at started
    rw [fsmUpdate_idle idle]
    exact hostPart_done_of_mode_changed (idle ▸ started)
  case clears =>
    rintro noCompletion v rfl bit
    obtain ⟨-, hostDone⟩ := fsmUpdate_keeps_mode_done noCompletion (hostPart (.wr 0x01#8 v) s)
    rw [hostDone, hostPart_statusWrite, writeStatus_done, clearsDone, bit, Bool.not_true, Bool.and_false]
  case keeps =>
    intro noCompletion sameMode noClear
    obtain ⟨hostMode, hostDone⟩ := fsmUpdate_keeps_mode_done noCompletion (hostPart i s)
    rw [clockEdge_mode, hostMode] at sameMode
    rw [hostDone, hostPart_done_of_mode_kept sameMode noClear]

/-! ### The reset state -/

/-- The mask of 20_memory.md R64: without KEYRDY every EK slot reads 0, whatever the store holds. -/
theorem memRead_ek_of_not_keyrdy {s : State} (notReady : s.keyrdy = false) (t : Fin 80) :
    memRead s (BitVec.ofNat 8 (0x80 + t.val)) = 0x00000000#32 := by
  simp [memRead_ek (slotOf_ek t), notReady]

/-- Settles O7: the stored fields are those of `State.reset`; EK reads 0 because KEYRDY is clear. -/
theorem resetStateValues : Obligations.ResetStateValues := by
  have keyWords (j : Fin 4) : State.reset.ik[j] = 0x00000000#32 := by simp [State.reset]
  have status : statusWord State.reset = 0x00000000#32 := by decide
  exact ⟨keyWords, rfl, rfl, rfl, rfl, rfl, rfl, rfl, rfl, status, rfl, memRead_ek_of_not_keyrdy rfl⟩

end Sys2Proof.Machine

/-! The memory family (20_memory.md): the masks on what a read shows. -/

namespace Sys2Proof.Machine

/-- The mask of 20_memory.md R64: the round states of a running cipher never show on the BLK slots. -/
theorem memRead_blk_of_ciphering {s : State} (ciphering : s.mode = .encrypt ∨ s.mode = .decrypt) (j : Fin 5) :
    memRead s (BitVec.ofNat 8 (0x08 + j.val)) = 0x00000000#32 := by
  rw [memRead_blk (slotOf_blk j), if_pos ciphering]

/-- Settles O17: the mask of each slot kind, and that the KEY slots have none. -/
theorem maskedReads : Obligations.MaskedReads :=
  ⟨fun _ j ciphering => memRead_blk_of_ciphering ciphering j,
    fun _ t notReady => memRead_ek_of_not_keyrdy notReady t,
    fun s j => memRead_key (slotOf_key j) s⟩

end Sys2Proof.Machine

/-! The encoding family (30_encoding.md): a command word is its two fields, and which words name a command. -/

namespace Sys2Proof.Machine

/-! ### The fields of a command word -/

/-- RSVD and OPC cover the whole command word (30_encoding.md R81). -/
theorem rsvdField_append_opcField (v : Word) : rsvdField v ++ opcField v = v :=
  BitVec.extractLsb'_append_extractLsb'

theorem word_eq_iff_fields (v w : Word) : v = w ↔ rsvdField v = rsvdField w ∧ opcField v = opcField w := by
  constructor
  · rintro rfl
    exact ⟨rfl, rfl⟩
  · rintro ⟨rsvd, opc⟩
    rw [← rsvdField_append_opcField v, rsvd, opc, rsvdField_append_opcField]

@[simp] theorem rsvdField_commandWord (p : Command) : rsvdField p.word = 0#28 := by
  cases p <;> decide

/-! ### The command a field or a word names -/

@[simp] theorem commandOfOpc_opcField_word (p : Command) : commandOfOpc (opcField p.word) = some p := by
  cases p <;> decide

theorem opc_of_commandOfOpc {opc : BitVec 4} {p : Command} (names : commandOfOpc opc = some p) :
    opc = opcField p.word := by
  unfold commandOfOpc at names
  split_ifs at names with one two three <;> cases names
  · exact one
  · exact two
  · exact three

theorem commandOfOpc_eq_some_iff (opc : BitVec 4) (p : Command) :
    commandOfOpc opc = some p ↔ opc = opcField p.word :=
  ⟨opc_of_commandOfOpc, fun same => same ▸ commandOfOpc_opcField_word p⟩

/-- A word names a command when its RSVD is 0 and its OPC is that command's (30_encoding.md R81). -/
theorem commandOf_eq_some_iff_fields (v : Word) (p : Command) :
    commandOf v = some p ↔ rsvdField v = 0#28 ∧ opcField v = opcField p.word := by
  rw [commandOf, Option.ite_none_right_eq_some, commandOfOpc_eq_some_iff]

/-- The match with mask 0xFFFFFFFF of 30_encoding.md R81: all 32 bits are the command's word. -/
theorem commandOf_eq_some_iff (v : Word) (p : Command) : commandOf v = some p ↔ v = p.word := by
  rw [commandOf_eq_some_iff_fields, word_eq_iff_fields, rsvdField_commandWord]

theorem exists_command_iff (P : Command → Prop) : (∃ p, P p) ↔ P .expand ∨ P .encrypt ∨ P .decrypt := by
  constructor
  · rintro ⟨p, holds⟩
    cases p with
    | expand => exact .inl holds
    | encrypt => exact .inr (.inl holds)
    | decrypt => exact .inr (.inr holds)
  · rintro (holds | holds | holds) <;> exact ⟨_, holds⟩

theorem commandOf_isSome_iff (v : Word) :
    (commandOf v).isSome = true ↔
      rsvdField v = 0#28 ∧ (opcField v = 0x1#4 ∨ opcField v = 0x2#4 ∨ opcField v = 0x3#4) := by
  simp only [Option.isSome_iff_exists, commandOf_eq_some_iff_fields, exists_and_left]
  exact and_congr_right fun _ => exists_command_iff fun p => opcField v = opcField p.word

/-- Settles O3: a word names `p` exactly when it is `p`'s word, and is legal exactly when its fields name some command. -/
theorem commandWordsExactlyThree : Obligations.CommandWordsExactlyThree := fun v =>
  ⟨commandOf_eq_some_iff v .expand, commandOf_eq_some_iff v .encrypt, commandOf_eq_some_iff v .decrypt,
    commandOf_isSome_iff v⟩

end Sys2Proof.Machine

/-! The key schedule family (42_key_schedule.md): the round constant of each quartile. -/

namespace Sys2Proof.Machine

/-- Quartile `q` is the twenty round indices from `20 q` on (00_scope.md R9). -/
theorem quartile_eq_iff (t : Fin 80) (q : Fin 4) : quartile t = q ↔ 20 * q.val ≤ t.val ∧ t.val < 20 * q.val + 20 := by
  simp only [quartile, Fin.ext_iff]
  omega

/-- A subkey of quartile `q` carries that quartile's constant (42_key_schedule.md R142). -/
theorem expand_get_of_quartile_range (ik : Vector Word 4) {t : Fin 80} (q : Fin 4) (start : 20 * q.val ≤ t.val)
    (stop : t.val < 20 * q.val + 20) : (expand ik)[t] = add32 (raw ik t.val) (roundConstant q) := by
  rw [expand_get, (quartile_eq_iff t q).mpr ⟨start, stop⟩]

/-- Settles O44: each index range is one quartile; the first starts at 0 and the last stops at the end of the store. -/
theorem subkeyPerQuartile : Obligations.SubkeyPerQuartile := fun ik t =>
  ⟨fun stop => expand_get_of_quartile_range ik 0 (Nat.zero_le _) stop,
    fun start stop => expand_get_of_quartile_range ik 1 start stop,
    fun start stop => expand_get_of_quartile_range ik 2 start stop,
    fun start => expand_get_of_quartile_range ik 3 start t.isLt⟩

end Sys2Proof.Machine

/-! The cipher engine family (43_cipher_engine.md): the acceptance of a command, and one edge of a running cipher. -/

namespace Sys2Proof.Machine

/-! ### Acceptance -/

/-- The checks of 60_exceptions.md R213 all pass: CMD is free, and the key schedule is ready where the command needs it. -/
theorem writeCommand_eq_accept {p : Command} {s : State} (idle : s.mode = .idle)
    (ready : p = .expand ∨ s.keyrdy = true) : writeCommand p s = accept p s := by
  have keyed : ¬(p ≠ .expand ∧ s.keyrdy = false) := by
    rintro ⟨cipher, notReady⟩
    rcases ready with expand | keyrdy
    · exact cipher expand
    · simp [keyrdy] at notReady
  rw [writeCommand, if_neg (not_not.mpr idle), if_neg keyed]

theorem exec_command (p : Command) (s : State) :
    exec p.instr s = .next (clockEdge 0x00#8 s (writeCommand p s)) := by
  cases p <;> rfl

/-- The acceptance edge is the acceptance alone: in IDLE the round controller adds nothing (43_cipher_engine.md R164). -/
theorem exec_command_accepted {p : Command} {s : State} (idle : s.mode = .idle)
    (ready : p = .expand ∨ s.keyrdy = true) :
    exec p.instr s = .next { accept p s with rdata := memRead s 0x00#8 } := by
  rw [exec_command, clockEdge_idle idle, writeCommand_eq_accept idle ready]

/-- Settles O9: the acceptance edge of each command; EXPAND needs no key schedule. -/
theorem acceptedCommandsStart : Obligations.AcceptedCommandsStart :=
  ⟨fun _ idle => ⟨_, exec_command_accepted (p := .expand) idle (.inl rfl)⟩,
    fun _ idle keyrdy => ⟨_, exec_command_accepted (p := .encrypt) idle (.inr keyrdy)⟩,
    fun _ idle keyrdy => ⟨_, exec_command_accepted (p := .decrypt) idle (.inr keyrdy)⟩⟩

/-! ### One edge of a running cipher -/

/-- Neither the counter's move nor the completion of a cipher touches the block, the subkey store or KEYRDY. -/
theorem advance_complete_frame (p s : State) :
    (advance p complete s).blk = s.blk ∧ (advance p complete s).ek = s.ek ∧
    (advance p complete s).keyrdy = s.keyrdy := by
  unfold advance
  split <;> exact ⟨rfl, rfl, rfl⟩

/-- The block after the edge is the round of the state before it, whatever the host write of the edge left. -/
theorem fsmUpdate_encrypt_blk {p : State} (encrypting : p.mode = .encrypt) (w : State) :
    (fsmUpdate p w).blk = encRound p.blk p.ek[p.ctr] p.ctr := by
  obtain ⟨blk, -, -⟩ := advance_complete_frame p (encryptStep p w)
  rw [fsmUpdate_encrypt encrypting, blk, encryptStep_blk]

/-- The block after the edge is the iteration of the state before it, whatever the host write of the edge left. -/
theorem fsmUpdate_decrypt_blk {p : State} (decrypting : p.mode = .decrypt) (w : State) :
    (fsmUpdate p w).blk = decRound p.blk p.ek[decSubkeyIndex p.ctr] p.ctr := by
  obtain ⟨blk, -, -⟩ := advance_complete_frame p (decryptStep p w)
  rw [fsmUpdate_decrypt decrypting, blk, decryptStep_blk]

theorem fsmUpdate_keeps_ek_keyrdy {p : State} (ciphering : p.mode = .encrypt ∨ p.mode = .decrypt) (w : State) :
    (fsmUpdate p w).ek = w.ek ∧ (fsmUpdate p w).keyrdy = w.keyrdy := by
  rcases ciphering with encrypting | decrypting
  · rw [fsmUpdate_encrypt encrypting]
    exact (advance_complete_frame p (encryptStep p w)).2
  · rw [fsmUpdate_decrypt decrypting]
    exact (advance_complete_frame p (decryptStep p w)).2

/-- What stays at an edge of a running cipher: the round controller leaves the key, the subkeys, KEYRDY and the inputs to
the host write, and a host write while busy keeps them (60_exceptions.md R214). -/
theorem clockEdge_keeps_key_material {s w : State} (ciphering : s.mode = .encrypt ∨ s.mode = .decrypt)
    (host : HostEffect s w) (a : SlotAddr) :
    (clockEdge a s w).ik = s.ik ∧ (clockEdge a s w).ek = s.ek ∧ (clockEdge a s w).keyrdy = s.keyrdy ∧
    (clockEdge a s w).inputs = s.inputs := by
  have busy : s.mode ≠ .idle := by rcases ciphering with mode | mode <;> simp [mode]
  obtain ⟨ek, keyrdy⟩ := fsmUpdate_keeps_ek_keyrdy ciphering w
  obtain ⟨ik, -, -, -, inputs⟩ := fsmUpdate_frame s w
  obtain ⟨-, -, hostIk, -, hostKeyrdy⟩ := host.busy_frame busy
  obtain ⟨hostEk, -, hostInputs, -, -⟩ := host.frame
  exact ⟨ik.trans hostIk, ek.trans hostEk, keyrdy.trans hostKeyrdy, inputs.trans hostInputs⟩

/-- Settles O29: no host write and no step of a cipher writes the subkey store. -/
theorem subkeysReadOnlyWhileCiphering : Obligations.SubkeysReadOnlyWhileCiphering := by
  intro i s ciphering
  obtain ⟨-, ek, -, -⟩ := clockEdge_keeps_key_material ciphering (hostPart_effect i s) (busSlot i)
  exact ⟨_, exec_eq_clockEdge i s, ek⟩

/-- Settles O32: the round controller writes the block over the host part; the rest is the frame of the edge. -/
theorem encryptStepPerEdge : Obligations.EncryptStepPerEdge := fun i s encrypting =>
  ⟨_, exec_eq_clockEdge i s, fsmUpdate_encrypt_blk encrypting _,
    clockEdge_keeps_key_material (.inl encrypting) (hostPart_effect i s) (busSlot i)⟩

/-- Settles O33: the round controller writes the block over the host part; the rest is the frame of the edge. -/
theorem decryptStepPerEdge : Obligations.DecryptStepPerEdge := fun i s decrypting =>
  ⟨_, exec_eq_clockEdge i s, fsmUpdate_decrypt_blk decrypting _,
    clockEdge_keeps_key_material (.inr decrypting) (hostPart_effect i s) (busSlot i)⟩

end Sys2Proof.Machine

/-! The exceptions family (60_exceptions.md): the refusals of a command, and the order of the checks on a CMD write. -/

namespace Sys2Proof.Machine

/-! ### The commands and their opcodes -/

/-- The illegal words by their fields (30_encoding.md R81, R83). -/
theorem commandOf_eq_none_iff (v : Word) :
    commandOf v = none ↔
      rsvdField v ≠ 0#28 ∨ ¬(opcField v = 0x1#4 ∨ opcField v = 0x2#4 ∨ opcField v = 0x3#4) := by
  rw [← Option.not_isSome_iff_eq_none, commandOf_isSome_iff, not_and_or]

theorem commandOf_eq_none_of_ne {v : Word} (notCommand : ∀ p : Command, v ≠ p.word) : commandOf v = none :=
  Option.eq_none_iff_forall_ne_some.mpr fun p names => notCommand p ((commandOf_eq_some_iff v p).mp names)

/-- The commands that need an expanded key, by OPC (60_exceptions.md R213, third check). -/
theorem opcField_cipher_iff {v : Word} {p : Command} (names : commandOf v = some p) :
    (opcField v = 0x2#4 ∨ opcField v = 0x3#4) ↔ p ≠ .expand := by
  rw [(commandOf_eq_some_iff v p).mp names]
  cases p <;> decide

/-- The acceptance read off the word's OPC (43_cipher_engine.md R164). -/
theorem accept_eq_of_opcField {v : Word} {p : Command} (names : commandOf v = some p) (s : State) :
    accept p s = { s with
      mode := if opcField v = 0x1#4 then .expand else if opcField v = 0x2#4 then .encrypt else .decrypt
      ctr := 0
      done := false
      keyrdy := if opcField v = 0x1#4 then false else s.keyrdy } := by
  rw [(commandOf_eq_some_iff v p).mp names]
  cases p <;> rfl

/-! ### The outcomes of a CMD write, and its edge -/

theorem writeCmd_of_illegal {v : Word} (illegal : commandOf v = none) (s : State) :
    writeCmd v s = raiseError .illegalCmd s := by
  rw [writeCmd, illegal]

theorem writeCmd_of_command {v : Word} {p : Command} (names : commandOf v = some p) (s : State) :
    writeCmd v s = writeCommand p s := by
  rw [writeCmd, names]

theorem writeCommand_eq_busy {s : State} (busy : s.mode ≠ .idle) (p : Command) :
    writeCommand p s = raiseError .busy s := by
  rw [writeCommand, if_pos busy]

theorem writeCommand_eq_noKey {p : Command} {s : State} (idle : s.mode = .idle) (cipher : p ≠ .expand)
    (notReady : s.keyrdy = false) : writeCommand p s = raiseError .noKey s := by
  rw [writeCommand, if_neg (not_not.mpr idle), if_pos ⟨cipher, notReady⟩]

/-- In IDLE a refused write changes only the error record and the port level (60_exceptions.md R210, R211). -/
theorem clockEdge_idle_raiseError {s : State} (idle : s.mode = .idle) (a : SlotAddr) (c : ErrorCode) :
    clockEdge a s (raiseError c s) = { s with
      err := true
      errcode := if s.err then s.errcode else errorNumber c
      rdata := memRead s a } := by
  rw [clockEdge_idle idle, raiseError]

theorem exec_cmdRead (s : State) : exec (.rd 0x00#8) s = .next (clockEdge 0x00#8 s s) :=
  exec_eq_clockEdge (.rd 0x00#8) s

theorem exec_cmdWrite (v : Word) (s : State) :
    exec (.wr 0x00#8 v) s = .next (clockEdge 0x00#8 s (writeCmd v s)) := by
  rw [← memWrite_cmd (a := 0x00#8) (by decide)]
  exact exec_eq_clockEdge (.wr 0x00#8 v) s

theorem exec_cmdWrite_illegal {v : Word} (illegal : commandOf v = none) (s : State) :
    exec (.wr 0x00#8 v) s = .next (clockEdge 0x00#8 s (raiseError .illegalCmd s)) := by
  rw [exec_cmdWrite, writeCmd_of_illegal illegal]

/-! ### The settled statements -/

/-- ENCRYPT or DECRYPT without an expanded key (60_exceptions.md R217). -/
theorem exec_command_noKey {p : Command} {s : State} (cipher : p ≠ .expand) (idle : s.mode = .idle)
    (notReady : s.keyrdy = false) :
    exec p.instr s = .next { s with
      err := true
      errcode := if s.err then s.errcode else 3#4
      rdata := memRead s 0x00#8 } := by
  rw [exec_command, writeCommand_eq_noKey idle cipher notReady, clockEdge_idle_raiseError idle, errorNumber]

/-- Settles O14: the two commands that need a key schedule. -/
theorem noKeyRefused : Obligations.NoKeyRefused := fun _ idle notReady =>
  ⟨⟨_, exec_command_noKey (p := .encrypt) (by decide) idle notReady⟩,
    ⟨_, exec_command_noKey (p := .decrypt) (by decide) idle notReady⟩⟩

/-- The example of 60_exceptions.md R215: in IDLE with nothing else set, STATUS shows ERR and the code ILLEGAL_CMD. -/
theorem statusWord_illegalCmd_only {t : State} (idle : t.mode = .idle) (notReady : t.keyrdy = false)
    (notDone : t.done = false) (err : t.err = true) (code : t.errcode = 1#4) : statusWord t = 0x00000018#32 := by
  rw [statusWord, busy, idle, notReady, notDone, err, code]
  decide

/-- Settles O12: an illegal word raises ILLEGAL_CMD, which every edge records beside the round controller's part
and an edge in IDLE records alone. -/
theorem illegalCommandRefused : Obligations.IllegalCommandRefused := by
  intro v s notExpand notEncrypt notDecrypt
  have illegal : commandOf v = none := commandOf_eq_none_of_ne fun
    | .expand => notExpand
    | .encrypt => notEncrypt
    | .decrypt => notDecrypt
  have edge := exec_cmdWrite_illegal illegal s
  refine ⟨⟨_, exec_cmdRead s, ?anyMode⟩, fun idle => ⟨memRead s 0x00#8, ?idle⟩,
    fun idle notReady notDone noErr => ⟨_, edge, ?status⟩⟩
  case anyMode => rw [edge, clockEdge_raiseError, errorNumber]
  case idle => rw [edge, clockEdge_idle_raiseError idle, errorNumber]
  case status =>
    rw [clockEdge_idle_raiseError idle]
    exact statusWord_illegalCmd_only idle notReady notDone rfl (by simp [noErr, errorNumber])

/-- Settles O11: the model's checks in the order of R213, each decided by the word's fields or by the state before the
edge. -/
theorem cmdWriteChecksInOrder : Obligations.CmdWriteChecksInOrder := by
  intro v s
  refine ⟨_, exec_cmdRead s, ?_⟩
  rw [exec_cmdWrite]
  split
  · next illegal =>
    rw [writeCmd_of_illegal ((commandOf_eq_none_iff v).mpr illegal), clockEdge_raiseError, errorNumber]
  · next legal =>
    obtain ⟨p, names⟩ := Option.ne_none_iff_exists'.mp (mt (commandOf_eq_none_iff v).mp legal)
    rw [writeCmd_of_command names]
    split
    · next busy => rw [writeCommand_eq_busy busy, clockEdge_raiseError, errorNumber]
    · next notBusy =>
      have idle : s.mode = .idle := not_not.mp notBusy
      split
      · next noKey =>
        obtain ⟨opc, notReady⟩ := noKey
        have cipher : p ≠ .expand := (opcField_cipher_iff names).mp opc
        rw [writeCommand_eq_noKey idle cipher notReady, clockEdge_raiseError, errorNumber]
      · next keyed =>
        have ready : p = .expand ∨ s.keyrdy = true := or_iff_not_imp_left.mpr fun cipher =>
          Bool.eq_true_of_not_eq_false fun notReady => keyed ⟨(opcField_cipher_iff names).mpr cipher, notReady⟩
        rw [writeCommand_eq_accept idle ready, clockEdge_idle idle, clockEdge_idle idle, accept_eq_of_opcField names]
        rfl

end Sys2Proof.Machine

/-! The datapath (40_arith_rotate.md to 43_cipher_engine.md): the adder, the rotation, the round functions, the rounds,
the block functions and the key schedule, as pure functions. -/

namespace Sys2Proof.Machine

/-! ### The adder and the rotation -/

@[simp] theorem sub32_add32_cancel (a b : Word) : sub32 (add32 a b) b = a := by
  rw [add32_eq_add, sub32_eq_sub, BitVec.add_sub_cancel]

@[simp] theorem add32_sub32_cancel (a b : Word) : add32 (sub32 a b) b = a := by
  rw [add32_eq_add, sub32_eq_sub, BitVec.sub_add_cancel]

theorem add32_comm (a b : Word) : add32 a b = add32 b a := by
  rw [add32_eq_add, add32_eq_add, BitVec.add_comm]

theorem sub32_toNat (a b : Word) : ((sub32 a b).toNat : Int) = ((a.toNat : Int) - b.toNat) % 2 ^ 32 := by
  rw [sub32, BitVec.toNat_ofInt]
  omega

/-- Two's complement: subtracting `b` is adding its complement plus one (40_arith_rotate.md R101). -/
theorem sub32_eq_add32_not (a b : Word) : sub32 a b = add32 a (add32 (~~~b) 1#32) := by
  rw [sub32_eq_sub, add32_eq_add, add32_eq_add, ← BitVec.neg_eq_not_add, BitVec.sub_eq_add_neg]

/-- Settles O36: the sum and the difference modulo 2^32, and the spec's two inferences. -/
theorem adderIsModulo : Obligations.AdderIsModulo := fun a b =>
  ⟨by rw [add32, BitVec.toNat_ofNat], sub32_toNat a b, sub32_eq_add32_not a b, sub32_add32_cancel a b⟩

/-- 40_arith_rotate.md R103: bit `i` of the rotation comes from `n` places below, around the end of the word. -/
theorem rotl_getLsbD (x : Word) {n i : Nat} (amount : n < 32) (bit : i < 32) :
    (rotl x n).getLsbD i = x.getLsbD ((i + 32 - n) % 32) := by
  rw [rotl_eq_rotateLeft x n amount, BitVec.getLsbD_rotateLeft, Nat.mod_eq_of_lt amount]
  by_cases wraps : i < n
  · rw [decide_eq_true wraps, cond_true]
    congr 1
    omega
  · rw [decide_eq_false wraps, cond_false, decide_eq_true bit, Bool.true_and]
    congr 1
    omega

theorem rotl_zero (x : Word) : rotl x 0 = x := by
  apply BitVec.eq_of_getLsbD_eq
  intro i bit
  rw [rotl_getLsbD x (by decide) bit, Nat.sub_zero, Nat.add_mod_right, Nat.mod_eq_of_lt bit]

/-- Settles O37: the bit formula, and that amount 0 changes nothing. -/
theorem rotationBitFormula : Obligations.RotationBitFormula := fun x =>
  ⟨fun _ _ amount bit => rotl_getLsbD x amount bit, rotl_zero x⟩

/-- Two rotations by amounts that add up to the word's width undo each other (40_arith_rotate.md R104). -/
theorem rotl_rotl_of_add_eq {m n : Nat} (hm : m < 32) (hn : n < 32) (whole : m + n = 32) (x : Word) :
    rotl (rotl x m) n = x := by
  apply BitVec.eq_of_getLsbD_eq
  intro i bit
  rw [rotl_getLsbD _ hn bit, rotl_getLsbD _ hm (Nat.mod_lt _ (by decide))]
  congr 1
  omega

@[simp] theorem rotl_30_2 (x : Word) : rotl (rotl x 30) 2 = x :=
  rotl_rotl_of_add_eq (by decide) (by decide) rfl x

@[simp] theorem rotl_2_30 (x : Word) : rotl (rotl x 2) 30 = x :=
  rotl_rotl_of_add_eq (by decide) (by decide) rfl x

/-- Settles O38: 30 and 2 add up to 32. -/
theorem rotationsBy30And2Inverse : Obligations.RotationsBy30And2Inverse := fun x => ⟨rotl_30_2 x, rotl_2_30 x⟩

/-! ### The round functions and the round steps -/

/-- Settles O39: each bit of a round function is a Boolean function of the three bits at its place. -/
theorem roundFunctionTruthTable : Obligations.RoundFunctionTruthTable := by
  intro b c d i bit
  simp only [f0, f1, f2, f3, BitVec.getLsbD_or, BitVec.getLsbD_and, BitVec.getLsbD_xor, BitVec.getLsbD_not, bit,
    decide_true, Bool.true_and]
  cases b.getLsbD i <;> cases c.getLsbD i <;> cases d.getLsbD i <;> decide

/-- The inverse step takes the two added words off again, in the order of R127. -/
theorem invStep_fwdStep (s : Block) (f : Word → Word → Word → Word) : invStep (fwdStep s f) f = s := by
  simp only [invStep, fwdStep, rotl_30_2, add32_comm (f s.b s.c s.d) s.e]
  rw [add32_eq_add, add32_eq_add, sub32_eq_sub, sub32_eq_sub]
  congr 1
  grind

theorem fwdStep_invStep (s : Block) (f : Word → Word → Word → Word) : fwdStep (invStep s f) f = s := by
  simp only [invStep, fwdStep, rotl_2_30]
  rw [add32_comm (f _ _ _)]
  rw [add32_eq_add, add32_eq_add, sub32_eq_sub, sub32_eq_sub]
  congr 1
  grind

/-- Settles O40: whatever the round function. -/
theorem roundStepsAreInverses : Obligations.RoundStepsAreInverses := fun s q =>
  ⟨invStep_fwdStep s (rf q), fwdStep_invStep s (rf q)⟩

@[simp] theorem keySub_keyAdd (s : Block) (k : Word) : keySub (keyAdd s k) k = s := by
  simp [keySub, keyAdd]

@[simp] theorem keyAdd_keySub (s : Block) (k : Word) : keyAdd (keySub s k) k = s := by
  simp [keySub, keyAdd]

/-- Iteration `79 - t` selects the round function of round `t` (41_round_functions.md R131). -/
theorem decSelect_eq_encSelect {t i : Fin 80} (mirrored : i.val = 79 - t.val) : decSelect i = encSelect t := by
  apply Fin.ext
  simp only [decSelect, encSelect, quartile]
  omega

theorem decRound_encRound {t i : Fin 80} (mirrored : i.val = 79 - t.val) (k : Word) (s : Block) :
    decRound (encRound s k t) k i = s := by
  rw [decRound, encRound, decSelect_eq_encSelect mirrored, keySub_keyAdd, invStep_fwdStep]

theorem encRound_decRound {t i : Fin 80} (mirrored : i.val = 79 - t.val) (k : Word) (s : Block) :
    encRound (decRound s k i) k t = s := by
  rw [decRound, encRound, decSelect_eq_encSelect mirrored, fwdStep_invStep, keyAdd_keySub]

/-- Settles O41: the same round function and the same subkey on both sides. -/
theorem decRoundUndoesEncRound : Obligations.DecRoundUndoesEncRound := fun s k _ _ mirrored =>
  ⟨decRound_encRound mirrored k s, encRound_decRound mirrored k s⟩

/-! ### The block functions -/

/-- A fold is undone by folding the inverse steps in the opposite order. -/
theorem foldl_reverse_foldl_cancel {α β : Type} {f g : β → α → β} (undo : ∀ b a, g (f b a) a = b) (l : List α) (b : β) :
    l.reverse.foldl g (l.foldl f b) = b := by
  induction l generalizing b with
  | nil => rfl
  | cons a l ih => rw [List.foldl_cons, List.reverse_cons, List.foldl_append, ih, List.foldl_cons, List.foldl_nil, undo]

theorem decSubkeyIndex_eq_rev (i : Fin 80) : decSubkeyIndex i = i.rev := by
  apply Fin.ext
  simp only [decSubkeyIndex, Fin.val_rev]
  omega

theorem rev_mirrored (t : Fin 80) : t.rev.val = 79 - t.val := by
  rw [Fin.val_rev]
  omega

/-- Decryption counted by the round that each iteration undoes: the rounds 79 down to 0 (43_cipher_engine.md R161). -/
theorem decryptBlock_eq_foldl_reverse (ek : Vector Word 80) (b : Block) :
    decryptBlock ek b = (List.finRange 80).reverse.foldl (fun s t => decRound s ek[t] t.rev) b := by
  rw [List.finRange_reverse, List.foldl_map, decryptBlock]
  simp only [decSubkeyIndex_eq_rev, Fin.rev_rev]

theorem decryptBlock_encryptBlock (ek : Vector Word 80) (b : Block) : decryptBlock ek (encryptBlock ek b) = b := by
  have undo (s : Block) (t : Fin 80) : decRound (encRound s ek[t] t) ek[t] t.rev = s :=
    decRound_encRound (rev_mirrored t) ek[t] s
  rw [decryptBlock_eq_foldl_reverse, encryptBlock]
  exact foldl_reverse_foldl_cancel undo (List.finRange 80) b

theorem encryptBlock_decryptBlock (ek : Vector Word 80) (b : Block) : encryptBlock ek (decryptBlock ek b) = b := by
  have undo (s : Block) (t : Fin 80) : encRound (decRound s ek[t] t.rev) ek[t] t = s :=
    encRound_decRound (rev_mirrored t) ek[t] s
  rw [decryptBlock_eq_foldl_reverse, encryptBlock]
  simpa only [List.reverse_reverse] using foldl_reverse_foldl_cancel undo (List.finRange 80).reverse b

/-- Settles O42: the 80 rounds are undone one by one from the last, in both directions. -/
theorem decryptUndoesEncrypt : Obligations.DecryptUndoesEncrypt := fun ek b =>
  ⟨decryptBlock_encryptBlock ek b, encryptBlock_decryptBlock ek b⟩

/-! ### The key schedule -/

/-- The first sixteen raw words repeat the key (42_key_schedule.md R141). -/
theorem raw_of_lt_16 (ik : Vector Word 4) {t : Nat} (early : t < 16) : raw ik t = keyWord ik t := by
  interval_cases t <;> rw [raw]

theorem raw_of_16_le (ik : Vector Word 4) {t : Nat} (late : 16 ≤ t) :
    raw ik t = recur (raw ik (t - 3)) (raw ik (t - 8)) (raw ik (t - 14)) (raw ik (t - 16)) := by
  obtain ⟨n, rfl⟩ := Nat.exists_eq_add_of_le' late
  exact raw_add_16 ik n

/-- Settles O43: the key repeated to word 15, the recurrence from word 16 on. -/
theorem rawWordRecurrence : Obligations.RawWordRecurrence := fun ik _ =>
  ⟨fun early => raw_of_lt_16 ik (Nat.lt_succ_of_le early), fun late => raw_of_16_le ik late⟩

/-- Words 16 to 18, whose taps all lie in the repeated key: two of the four are one key word and cancel
(42_key_schedule.md R147). -/
theorem raw_16_to_18 (ik : Vector Word 4) :
    raw ik 16 = rotl (ik[1] ^^^ ik[2]) 1 ∧ raw ik 17 = rotl (ik[2] ^^^ ik[3]) 1 ∧
    raw ik 18 = rotl (ik[3] ^^^ ik[0]) 1 := by
  have cancel (x y z : Word) : x ^^^ y ^^^ z ^^^ y = x ^^^ z := by
    rw [BitVec.xor_assoc x y z, BitVec.xor_comm y z, ← BitVec.xor_assoc, BitVec.xor_assoc _ y y, BitVec.xor_self,
      BitVec.xor_zero]
  refine ⟨?_, ?_, ?_⟩ <;>
    simp [raw_of_16_le, raw_of_lt_16, keyWord, recur, cancel]

@[simp] theorem rotl_zeros (n : Nat) : rotl 0x00000000#32 n = 0x00000000#32 := by
  simp [rotl]

theorem raw_zeroKey (t : Nat) : raw (Vector.replicate 4 0x00000000#32) t = 0x00000000#32 := by
  induction t using Nat.strongRecOn with
  | ind t ih =>
    by_cases early : t < 16
    · rw [raw_of_lt_16 _ early, keyWord, Vector.getElem_replicate]
    · have tap (d : Nat) (back : 0 < d) := ih (t - d) (by omega)
      rw [raw_of_16_le _ (not_lt.mp early), tap 3 (by decide), tap 8 (by decide), tap 14 (by decide),
        tap 16 (by decide)]
      decide

theorem expand_zeroKey (t : Fin 80) :
    (expand (Vector.replicate 4 0x00000000#32))[t] = roundConstant (quartile t) := by
  rw [expand_get, raw_zeroKey, add32_eq_add, BitVec.zero_add]

/-- Settles O45: words 16 to 18 of any key, the all-zero key by induction, and the all-ones key from the first. -/
theorem scheduleCornerCases : Obligations.ScheduleCornerCases := by
  have ones : raw (Vector.replicate 4 0xFFFFFFFF#32) 16 = 0x00000000#32 ∧
      raw (Vector.replicate 4 0xFFFFFFFF#32) 17 = 0x00000000#32 ∧
      raw (Vector.replicate 4 0xFFFFFFFF#32) 18 = 0x00000000#32 := by
    simpa using raw_16_to_18 (Vector.replicate 4 0xFFFFFFFF#32)
  exact ⟨raw_16_to_18, raw_zeroKey, expand_zeroKey, ones⟩

end Sys2Proof.Machine

/-! The host's pipeline (44_host_pipeline.md): padding, bytes and words, words and blocks, files. -/

namespace Sys2Proof.Machine

/-! ### Padding -/

theorem pad_length (bytes : List Byte) : (pad bytes).length = bytes.length + (20 - bytes.length % 20) := by
  rw [pad, List.length_append, List.length_replicate]

theorem pad_length_mod (bytes : List Byte) : (pad bytes).length % 20 = 0 := by
  rw [pad_length]
  omega

/-- Settles O53: the number of padding bytes is the distance to the next multiple of 20, never 0. -/
theorem paddingRule : Obligations.PaddingRule := fun bytes =>
  ⟨20 - bytes.length % 20, by omega, by omega, rfl, rfl, pad_length_mod bytes, by omega⟩

/-! ### Bytes and words -/

/-- The bytes of four appended bytes, from the first to the last. -/
theorem extract_append_bytes (b0 b1 b2 b3 : Byte) :
    (b0 ++ b1 ++ b2 ++ b3).extractLsb' 24 8 = b0 ∧ (b0 ++ b1 ++ b2 ++ b3).extractLsb' 16 8 = b1 ∧
    (b0 ++ b1 ++ b2 ++ b3).extractLsb' 8 8 = b2 ∧ (b0 ++ b1 ++ b2 ++ b3).extractLsb' 0 8 = b3 := by
  refine ⟨?first, ?second, ?third, BitVec.extractLsb'_append_eq_right⟩
  case third => rw [BitVec.extractLsb'_append_eq_of_le (by decide), BitVec.extractLsb'_append_eq_right]
  case second =>
    rw [BitVec.extractLsb'_append_eq_of_le (by decide), BitVec.extractLsb'_append_eq_of_le (by decide),
      BitVec.extractLsb'_append_eq_right]
  case first =>
    rw [BitVec.extractLsb'_append_eq_of_le (by decide), BitVec.extractLsb'_append_eq_of_le (by decide),
      BitVec.extractLsb'_append_eq_of_le (by decide), BitVec.extractLsb'_eq_self]

theorem bytesOfWord_wordOfBytes (b0 b1 b2 b3 : Byte) : bytesOfWord (wordOfBytes b0 b1 b2 b3) = [b0, b1, b2, b3] := by
  obtain ⟨first, second, third, fourth⟩ := extract_append_bytes b0 b1 b2 b3
  simp only [bytesOfWord, wordOfBytes]
  congr

/-- The four bytes of a word cover it. -/
theorem wordOfBytes_bytesOfWord (w : Word) :
    wordOfBytes (w.extractLsb' 24 8) (w.extractLsb' 16 8) (w.extractLsb' 8 8) (w.extractLsb' 0 8) = w := by
  apply BitVec.eq_of_getLsbD_eq
  intro i bit
  simp only [wordOfBytes, BitVec.getLsbD_append, BitVec.getLsbD_extractLsb']
  grind

@[simp] theorem pack_cons (w : Word) (words : List Word) : pack (w :: words) = bytesOfWord w ++ pack words := rfl

theorem pack_append (v w : List Word) : pack (v ++ w) = pack v ++ pack w := List.flatMap_append

@[simp] theorem unpack_bytesOfWord_append (w : Word) (bytes : List Byte) :
    unpack (bytesOfWord w ++ bytes) = w :: unpack bytes := by
  simp only [bytesOfWord, List.cons_append, List.nil_append, unpack, wordOfBytes_bytesOfWord]

theorem unpack_pack (words : List Word) : unpack (pack words) = words := by
  induction words with
  | nil => rfl
  | cons w words ih => rw [pack_cons, unpack_bytesOfWord_append, ih]

theorem pack_unpack {bytes : List Byte} (whole : bytes.length % 4 = 0) : pack (unpack bytes) = bytes := by
  induction bytes using unpack.induct with
  | case1 b0 b1 b2 b3 rest ih =>
    have wholeRest : rest.length % 4 = 0 := by
      simp only [List.length_cons] at whole
      omega
    rw [unpack, pack_cons, bytesOfWord_wordOfBytes, ih wholeRest]
    rfl
  | case2 => rfl
  | case3 | case4 | case5 => simp at whole

theorem unpack_append {x : List Byte} (whole : x.length % 4 = 0) (y : List Byte) :
    unpack (x ++ y) = unpack x ++ unpack y := by
  induction x using unpack.induct with
  | case1 b0 b1 b2 b3 rest ih =>
    have wholeRest : rest.length % 4 = 0 := by
      simp only [List.length_cons] at whole
      omega
    simp only [List.cons_append, unpack, ih wholeRest]
  | case2 => rfl
  | case3 | case4 | case5 => simp at whole

theorem pack_length (words : List Word) : (pack words).length = 4 * words.length := by
  simp [pack, bytesOfWord, List.length_flatMap, Nat.mul_comm]

theorem unpack_length (bytes : List Byte) : (unpack bytes).length = bytes.length / 4 := by
  induction bytes using unpack.induct with
  | case1 b0 b1 b2 b3 rest ih =>
    simp only [unpack, List.length_cons, ih]
    omega
  | case2 | case3 | case4 | case5 => simp [unpack]

/-- Settles O54: word by word, where the bytes are whole words. -/
theorem packUnpackInverse : Obligations.PackUnpackInverse := ⟨fun _ whole => pack_unpack whole, unpack_pack⟩

/-! ### Words and blocks -/

theorem blocksOf_flatMap_wordsOfBlock (blocks : List Block) : blocksOf (blocks.flatMap wordsOfBlock) = blocks := by
  induction blocks with
  | nil => rfl
  | cons b blocks ih => simp [wordsOfBlock, blocksOf, ih]

theorem flatMap_wordsOfBlock_blocksOf {words : List Word} (whole : words.length % 5 = 0) :
    (blocksOf words).flatMap wordsOfBlock = words := by
  induction words using blocksOf.induct with
  | case1 a b c d e rest ih =>
    have wholeRest : rest.length % 5 = 0 := by
      simp only [List.length_cons] at whole
      omega
    rw [blocksOf, List.flatMap_cons, ih wholeRest]
    rfl
  | case2 => rfl
  | case3 | case4 | case5 | case6 => simp at whole

theorem blocksOf_append {v : List Word} (whole : v.length % 5 = 0) (w : List Word) :
    blocksOf (v ++ w) = blocksOf v ++ blocksOf w := by
  induction v using blocksOf.induct with
  | case1 a b c d e rest ih =>
    have wholeRest : rest.length % 5 = 0 := by
      simp only [List.length_cons] at whole
      omega
    simp only [List.cons_append, blocksOf, ih wholeRest]
  | case2 => rfl
  | case3 | case4 | case5 | case6 => simp at whole

theorem blocksOf_length (words : List Word) : (blocksOf words).length = words.length / 5 := by
  induction words using blocksOf.induct with
  | case1 a b c d e rest ih =>
    simp only [blocksOf, List.length_cons, ih]
    omega
  | case2 | case3 | case4 | case5 | case6 => simp [blocksOf]

/-! ### Byte strings, block by block -/

theorem mapBlocks_length (f : Block → Block) (bytes : List Byte) :
    (mapBlocks f bytes).length = 20 * (bytes.length / 20) := by
  have words (blocks : List Block) : (blocks.flatMap wordsOfBlock).length = 5 * blocks.length := by
    simp [wordsOfBlock, List.length_flatMap, Nat.mul_comm]
  rw [mapBlocks, pack_length, words, List.length_map, blocksOf_length, unpack_length]
  omega

theorem mapBlocks_append (f : Block → Block) {x : List Byte} (whole : x.length % 20 = 0) (y : List Byte) :
    mapBlocks f (x ++ y) = mapBlocks f x ++ mapBlocks f y := by
  have wholeWords : x.length % 4 = 0 := by omega
  have wholeBlocks : (unpack x).length % 5 = 0 := by rw [unpack_length]; omega
  rw [mapBlocks, unpack_append wholeWords, blocksOf_append wholeBlocks, List.map_append, List.flatMap_append,
    pack_append]
  rfl

/-- Block functions compose: the bytes between them are the same blocks again. -/
theorem mapBlocks_mapBlocks (f g : Block → Block) (bytes : List Byte) :
    mapBlocks g (mapBlocks f bytes) = mapBlocks (g ∘ f) bytes := by
  rw [mapBlocks, mapBlocks, unpack_pack, blocksOf_flatMap_wordsOfBlock, List.map_map, ← mapBlocks]

theorem mapBlocks_id {bytes : List Byte} (whole : bytes.length % 20 = 0) : mapBlocks id bytes = bytes := by
  have wholeWords : bytes.length % 4 = 0 := by omega
  have wholeBlocks : (unpack bytes).length % 5 = 0 := by rw [unpack_length]; omega
  rw [mapBlocks, List.map_id, flatMap_wordsOfBlock_blocksOf wholeBlocks, pack_unpack wholeWords]

/-- Settles O57: no chaining, because the grouping into words and blocks splits at a block's end. -/
theorem ecbBlocksIndependent : Obligations.EcbBlocksIndependent := fun f _ y whole => mapBlocks_append f whole y

/-! ### Files -/

theorem encryptBytes_length (bytes : List Byte) (ik : Vector Word 4) :
    (encryptBytes bytes ik).length = (pad bytes).length := by
  have whole := pad_length_mod bytes
  rw [encryptBytes, mapBlocks_length]
  omega

theorem decryptBytes_of_whole {bytes : List Byte} (whole : bytes.length % 20 = 0) (ik : Vector Word 4) :
    decryptBytes bytes ik = .ok (mapBlocks (decryptBlock (expand ik)) bytes) := by
  rw [decryptBytes, if_neg (not_not.mpr whole)]

/-- Settles O56: padding decides the length of a ciphertext; decryption keeps whole blocks and refuses anything else. -/
theorem pipelineLengths : Obligations.PipelineLengths := by
  refine ⟨fun bytes ik => ?encrypts, fun bytes ik partBlock => ?refuses,
    fun bytes ik whole => ⟨_, decryptBytes_of_whole whole ik, ?keeps⟩⟩
  case encrypts => rw [encryptBytes_length, pad_length]
  case refuses => rw [decryptBytes, if_pos partBlock]
  case keeps =>
    rw [mapBlocks_length]
    omega

/-- Settles O55: the ciphertext is whole blocks, and each block's decryption undoes its encryption. -/
theorem pipelineRoundTripKeepsPadding : Obligations.PipelineRoundTripKeepsPadding := by
  intro bytes ik
  have whole : (encryptBytes bytes ik).length % 20 = 0 := by rw [encryptBytes_length, pad_length_mod]
  have undone : decryptBlock (expand ik) ∘ encryptBlock (expand ik) = id := by
    funext b
    rw [Function.comp_apply, decryptBlock_encryptBlock, id_eq]
  rw [decryptBytes_of_whole whole, encryptBytes, mapBlocks_mapBlocks, undone, mapBlocks_id (pad_length_mod bytes)]

/-! ### The byte-address adapter -/

/-- Settles O58: the low two bits of the byte address are dropped (20_memory.md R66). -/
theorem byteAddressSelectsSlot : Obligations.ByteAddressSelectsSlot := by
  intro a k
  have inRange : 4 * a.toNat + k.val < 1024 := by have := a.isLt; omega
  apply BitVec.eq_of_toNat_eq
  rw [slotOfByteAddress, BitVec.extractLsb'_toNat, BitVec.toNat_ofNat, Nat.mod_eq_of_lt inRange,
    Nat.shiftRight_eq_div_pow]
  omega

end Sys2Proof.Machine

/-! The bus words of an instruction (30_encoding.md), and the instruction that a cycle runs. -/

namespace Sys2Proof.Machine

/-! ### The control word -/

@[simp] theorem controlWe_controlWord (we : Bool) (a : SlotAddr) : controlWe (controlWord we a) = we := by
  rw [controlWe, controlWord, BitVec.getLsbD_append]
  simp

@[simp] theorem controlAddr_controlWord (we : Bool) (a : SlotAddr) : controlAddr (controlWord we a) = a :=
  BitVec.extractLsb'_append_eq_right

/-- The strobe and the address cover the control word (30_encoding.md R85). -/
theorem controlWord_eta (c : BitVec 9) : controlWord (controlWe c) (controlAddr c) = c := by
  apply BitVec.eq_of_getLsbD_eq
  intro i bit
  simp only [controlWord, controlWe, controlAddr, BitVec.getLsbD_append, BitVec.getLsbD_extractLsb',
    BitVec.getLsbD_ofBool]
  by_cases address : i < 8
  · simp [address]
  · obtain rfl : i = 8 := by omega
    simp

/-! ### Decoding, case by case -/

theorem isCommandWord_iff (v : Word) : isCommandWord v = true ↔ ∃ p : Command, v = p.word := by
  rw [exists_command_iff]
  simp [isCommandWord, Command.word, or_assoc]

theorem decode_read {b : BusWords} (read : controlWe b.control = false) : decode b = .rd (controlAddr b.control) := by
  simp [decode, read]

theorem decode_write {b : BusWords} (write : controlWe b.control = true) (notCmd : controlAddr b.control ≠ 0x00#8) :
    decode b = .wr (controlAddr b.control) b.wdata := by
  simp [decode, write, notCmd]

theorem decode_command {b : BusWords} (write : controlWe b.control = true) (cmd : controlAddr b.control = 0x00#8)
    {p : Command} (names : b.wdata = p.word) : decode b = p.instr := by
  simp [decode, write, cmd, (commandOf_eq_some_iff b.wdata p).mpr names]

theorem decode_illegalCommand {b : BusWords} (write : controlWe b.control = true)
    (cmd : controlAddr b.control = 0x00#8) (illegal : ∀ p : Command, b.wdata ≠ p.word) :
    decode b = .wr 0x00#8 b.wdata := by
  simp [decode, write, cmd, commandOf_eq_none_of_ne illegal]

/-- The ways a bus word decodes: a read, a command, or a write that is no command (30_encoding.md R86). -/
theorem decode_cases (b : BusWords) :
    (controlWe b.control = false ∧ decode b = .rd (controlAddr b.control)) ∨
    (∃ p : Command, b.control = controlWord true 0x00#8 ∧ b.wdata = p.word ∧ decode b = p.instr) ∨
    (controlWe b.control = true ∧ decode b = .wr (controlAddr b.control) b.wdata ∧
      ¬(controlAddr b.control = 0x00#8 ∧ ∃ p : Command, b.wdata = p.word)) := by
  cases write : controlWe b.control with
  | false => exact .inl ⟨rfl, decode_read write⟩
  | true =>
    by_cases cmd : controlAddr b.control = 0x00#8
    · by_cases legal : ∃ p : Command, b.wdata = p.word
      · obtain ⟨p, names⟩ := legal
        have control : b.control = controlWord true 0x00#8 := by rw [← write, ← cmd, controlWord_eta]
        exact .inr (.inl ⟨p, control, names, decode_command write cmd names⟩)
      · have written := decode_illegalCommand write cmd (not_exists.mp legal)
        exact .inr (.inr ⟨rfl, by rw [written, cmd], fun both => legal both.2⟩)
    · exact .inr (.inr ⟨rfl, decode_write write cmd, fun both => cmd both.1⟩)

theorem wellFormed_command (p : Command) : WellFormed p.instr = true := by
  cases p <;> rfl

theorem encode_command (p : Command) : encode p.instr = ⟨controlWord true 0x00#8, p.word⟩ := by
  cases p <;> rfl

theorem wellFormed_wr_iff (a : SlotAddr) (v : Word) :
    WellFormed (.wr a v) = true ↔ ¬(a = 0x00#8 ∧ ∃ p : Command, v = p.word) := by
  rw [← isCommandWord_iff]
  simp [WellFormed, imp_iff_not_or]

theorem decode_encode_command (p : Command) : decode (encode p.instr) = p.instr := by
  rw [encode_command]
  exact decode_command (by simp) (by simp) rfl

theorem decode_encode_wr {a : SlotAddr} {v : Word} (wellFormed : WellFormed (.wr a v) = true) :
    decode (encode (.wr a v)) = .wr a v := by
  rw [wellFormed_wr_iff] at wellFormed
  rcases decode_cases (encode (.wr a v)) with ⟨read, -⟩ | ⟨p, control, names, -⟩ | ⟨-, written, -⟩
  · simp [encode] at read
  · have cmd : a = 0x00#8 := by simpa [encode] using congrArg controlAddr control
    exact absurd ⟨cmd, p, names⟩ wellFormed
  · simpa [encode] using written

/-- Settles O1: a command is the write of its word to CMD, and the spelling rule leaves no other write of that word. -/
theorem decodeEncodeRoundTrip : Obligations.DecodeEncodeRoundTrip := by
  intro i wellFormed
  cases i with
  | expand => exact decode_encode_command .expand
  | encrypt => exact decode_encode_command .encrypt
  | decrypt => exact decode_encode_command .decrypt
  | rd a => simpa [encode] using decode_read (b := encode (.rd a)) (by simp [encode])
  | wr a v => exact decode_encode_wr wellFormed

theorem wellFormed_decode (b : BusWords) : WellFormed (decode b) = true := by
  rcases decode_cases b with ⟨-, read⟩ | ⟨p, -, -, command⟩ | ⟨-, written, notCommand⟩
  · rw [read, WellFormed]
  · rw [command, wellFormed_command]
  · rw [written, wellFormed_wr_iff]
    exact notCommand

theorem encode_decode_of_write {b : BusWords} (write : controlWe b.control = true) : encode (decode b) = b := by
  rcases decode_cases b with ⟨read, -⟩ | ⟨p, control, names, command⟩ | ⟨-, written, -⟩
  · rw [read] at write
    contradiction
  · rw [command, encode_command, ← control, ← names]
  · rw [written, encode, ← write, controlWord_eta]

/-- Settles O2: the control word is its strobe and its address; a read has no `wdata` to give back. -/
theorem encodeDecodeRoundTrip : Obligations.EncodeDecodeRoundTrip := fun b =>
  ⟨wellFormed_decode b, encode_decode_of_write, fun read => by rw [decode_read read, encode, ← read, controlWord_eta]⟩

/-- Settles O4: the fixed words of V2.7, evaluated. -/
theorem specWordsDecode : Obligations.SpecWordsDecode := by
  unfold Obligations.SpecWordsDecode
  decide

/-! ### The instruction of a cycle -/

theorem step_reset {s : State} (rst : (presented s).rst = true) :
    step s = .next (resetEdge (presented s).addr (takeInput s)) := by
  rw [step, if_pos rst]

theorem step_noReset {s : State} (noRst : (presented s).rst = false) :
    step s = exec (decodePorts (presented s)) (takeInput s) := by
  rw [step, noRst, if_neg Bool.false_ne_true]

/-- Settles O5: the decoder's answer is well formed, and `takeInput` only drops the cycle's input. -/
theorem stepRunsDecodedInstruction : Obligations.StepRunsDecodedInstruction := by
  rintro s _ noRst rfl
  exact ⟨wellFormed_decode _, step_noReset noRst⟩

theorem step_answers_next (s : State) : ∃ t, step s = .next t := by
  cases rst : (presented s).rst with
  | true => exact ⟨_, step_reset rst⟩
  | false => exact ⟨_, (step_noReset rst).trans (exec_eq_clockEdge _ _)⟩

/-- Settles O6: an instruction is one clock edge, and a cycle is an instruction or a reset edge. -/
theorem everyInstructionAnswersNext : Obligations.EveryInstructionAnswersNext :=
  ⟨fun i s => ⟨_, exec_eq_clockEdge i s⟩, step_answers_next⟩

/-- The two spellings of a command are one operation (30_encoding.md R89). -/
theorem exec_cmdWrite_commandWord (p : Command) (s : State) : exec (.wr 0x00#8 p.word) s = exec p.instr s := by
  rw [exec_cmdWrite, writeCmd_of_command ((commandOf_eq_some_iff p.word p).mpr rfl), exec_command]

/-- Settles O10: each of the three words. -/
theorem legalCmdWriteIsItsCommand : Obligations.LegalCmdWriteIsItsCommand := fun s =>
  ⟨exec_cmdWrite_commandWord .expand s, exec_cmdWrite_commandWord .encrypt s, exec_cmdWrite_commandWord .decrypt s⟩

end Sys2Proof.Machine

/-! The register slots under one cycle: the STATUS word, reads and writes slot by slot, refusals, reset and `irq`. -/

namespace Sys2Proof.Machine

/-! ### The STATUS word -/

/-- The read value of STATUS bit by bit (10_state.md R25). -/
theorem statusWord_getLsbD (s : State) (i : Nat) :
    (statusWord s).getLsbD i =
      if i = 0 then busy s else if i = 1 then s.done else if i = 2 then s.keyrdy else if i = 3 then s.err
      else if i < 8 then s.errcode.getLsbD (i - 4) else (modeCode s.mode).getLsbD (i - 8) := by
  simp only [statusWord, BitVec.getLsbD_setWidth, BitVec.getLsbD_append, BitVec.getLsbD_ofBool]
  grind

theorem busy_iff (s : State) : busy s = true ↔ s.mode = .expand ∨ s.mode = .encrypt ∨ s.mode = .decrypt := by
  rw [busy]
  cases s.mode <;> decide

theorem statusWord_errcode (s : State) : (statusWord s).extractLsb' 4 4 = s.errcode := by
  apply BitVec.eq_of_getLsbD_eq
  intro i bit
  rw [BitVec.getLsbD_extractLsb', statusWord_getLsbD]
  grind

theorem statusWord_mode (s : State) : (statusWord s).extractLsb' 8 2 = modeCode s.mode := by
  apply BitVec.eq_of_getLsbD_eq
  intro i bit
  rw [BitVec.getLsbD_extractLsb', statusWord_getLsbD]
  grind

theorem statusWord_high (s : State) : (statusWord s).extractLsb' 10 22 = 0#22 := by
  apply BitVec.eq_of_getLsbD_eq
  intro i bit
  rw [BitVec.getLsbD_extractLsb', statusWord_getLsbD]
  grind

/-- Settles O18: each field of the word, and the three opcodes. -/
theorem statusReadValue : Obligations.StatusReadValue := by
  refine ⟨fun s => ⟨?busy, ?done, ?keyrdy, ?err, statusWord_errcode s, statusWord_mode s, statusWord_high s⟩, rfl,
    fun p => by cases p <;> decide⟩ <;> rw [statusWord_getLsbD]
  case busy => exact busy_iff s
  all_goals rfl

/-! ### Reads -/

theorem exec_rd (a : SlotAddr) (s : State) : exec (.rd a) s = .next (clockEdge a s s) :=
  exec_eq_clockEdge (.rd a) s

theorem exec_wr (a : SlotAddr) (v : Word) (s : State) : exec (.wr a v) s = .next (clockEdge a s (memWrite a v s)) :=
  exec_eq_clockEdge (.wr a v) s

theorem blockWord_eq_list (b : Block) (j : Fin 5) : blockWord b j = [b.a, b.b, b.c, b.d, b.e][j] := by
  fin_cases j <;> rfl

/-- The addresses between the registers, and those after EK79, are reserved (20_memory.md R61). -/
theorem slotOf_reserved_range {a : SlotAddr} :
    a = 0x03#8 ∨ (0x0D ≤ a.toNat ∧ a.toNat ≤ 0x7F) ∨ 0xD0 ≤ a.toNat → slotOf a = .reserved := by
  revert a
  decide

/-- Settles O16: one slot kind after the other; the round controller leaves what a read must keep to the host write, and
a read writes nothing. -/
theorem readValuePerSlot : Obligations.ReadValuePerSlot := by
  intro s
  refine ⟨memRead_cmd (by decide) s, memRead_status (by decide) s, memRead_irqen (by decide) s,
    fun j => memRead_key (slotOf_key j) s, fun j => ?blk, fun t => memRead_ek (slotOf_ek t) s,
    fun a reserved => memRead_reserved (slotOf_reserved_range reserved) s,
    fun a => ⟨_, exec_rd a s, rfl, ?frame⟩⟩
  case blk => rw [memRead_blk (slotOf_blk j), blockWord_eq_list]
  case frame =>
    obtain ⟨ik, err, errcode, irqen, inputs⟩ := fsmUpdate_frame s s
    exact ⟨err, errcode, irqen, ik, inputs⟩

/-- Settles O19: in IDLE the round controller adds nothing to a read. -/
theorem readInIdleChangesNothing : Obligations.ReadInIdleChangesNothing := fun a s idle => by
  rw [exec_rd, clockEdge_idle idle]

/-- Settles O20: the address reaches a read's edge in `rdata` only. -/
theorem readAddressHasNoSideEffect : Obligations.ReadAddressHasNoSideEffect := fun a b s =>
  ⟨_, exec_rd a s, exec_rd b s⟩

/-! ### Writes in IDLE -/

/-- Settles O21: in IDLE the edge of a key write is that write. -/
theorem keyWriteInIdle : Obligations.KeyWriteInIdle := by
  intro j v s idle
  rw [exec_wr, memWrite_key (slotOf_key j), clockEdge_idle idle, writeKey, if_pos idle, memRead_key (slotOf_key j),
    setKey]

theorem exec_blkWrite_idle {s : State} (idle : s.mode = .idle) (j : Fin 5) (v : Word) :
    exec (.wr (BitVec.ofNat 8 (0x08 + j.val)) v) s =
      .next { s with blk := setBlockWord s.blk j v, rdata := blockWord s.blk j } := by
  have masked : ¬(s.mode = .encrypt ∨ s.mode = .decrypt) := by simp [idle]
  rw [exec_wr, memWrite_blk (slotOf_blk j), clockEdge_idle idle, writeBlk, if_pos idle, memRead_blk (slotOf_blk j),
    if_neg masked, setBlk]

/-- Settles O22: the five words of the block. -/
theorem blkWriteInIdle : Obligations.BlkWriteInIdle := fun v _ idle =>
  ⟨exec_blkWrite_idle idle 0 v, exec_blkWrite_idle idle 1 v, exec_blkWrite_idle idle 2 v, exec_blkWrite_idle idle 3 v,
    exec_blkWrite_idle idle 4 v⟩

/-! ### Writes that no mode refuses -/

/-- The round controller sets DONE at a completion and otherwise takes the host write's DONE; the error record it takes
as it is (43_cipher_engine.md R167, 60_exceptions.md R221). -/
theorem fsmUpdate_statusFlags (p w : State) (done err : Bool) (code : BitVec 4) :
    fsmUpdate p { w with done := done, err := err, errcode := code } = { fsmUpdate p w with
      done := if p.mode ≠ .idle ∧ p.ctr.val = 79 then true else done
      err := err
      errcode := code } := by
  have bound := p.ctr.isLt
  cases mode : p.mode with
  | idle => simp [fsmUpdate_idle mode]
  | expand | encrypt | decrypt =>
    by_cases last : p.ctr.val = 79
    · simp only [fsmUpdate_expand, fsmUpdate_encrypt, fsmUpdate_decrypt, mode, advance_last last, last]
      rfl
    · simp only [fsmUpdate_expand, fsmUpdate_encrypt, fsmUpdate_decrypt, mode, advance_below (p := p) (by omega), last]
      rfl

theorem fsmUpdate_writeIrqen (v : Word) (p w : State) :
    fsmUpdate p (writeIrqen v w) = { fsmUpdate p w with irqen := v.extractLsb' 0 2 } := by
  cases mode : p.mode with
  | idle => rw [fsmUpdate_idle mode, fsmUpdate_idle mode, writeIrqen]
  | expand | encrypt | decrypt =>
    simp only [fsmUpdate_expand, fsmUpdate_encrypt, fsmUpdate_decrypt, mode, advance]
    split <;> rfl

/-- Settles O23: a STATUS write is one update of the flags, beside the round controller's part of the edge. -/
theorem statusWriteClears : Obligations.StatusWriteClears := by
  intro v s
  refine ⟨_, exec_rd 0x01#8 s, ?_⟩
  rw [exec_wr, memWrite_status (a := 0x01#8) (by decide), writeStatus_eq, clockEdge, fsmUpdate_statusFlags, clockEdge]
  rfl

/-- Settles O24: an IRQEN write is the edge of a read but for the enables. -/
theorem irqenWriteSetsEnables : Obligations.IrqenWriteSetsEnables := by
  intro v s
  refine ⟨_, exec_rd 0x02#8 s, memRead_irqen (a := 0x02#8) (by decide) s, ?_⟩
  rw [exec_wr, memWrite_irqen (a := 0x02#8) (by decide), clockEdge, fsmUpdate_writeIrqen, clockEdge]

/-! ### Ignored and refused writes -/

/-- Settles O25: such a write has no host part. -/
theorem readOnlyAndReservedWritesIgnored : Obligations.ReadOnlyAndReservedWritesIgnored := by
  intro a v s ignored
  refine ⟨_, exec_rd a s, ?_⟩
  rcases slotOf_ignored_range ignored with reserved | ⟨t, ek⟩
  · rw [exec_wr, memWrite_reserved reserved]
  · rw [exec_wr, memWrite_ek ek]

/-- A legal CMD write, a KEY write or a BLK write: what 60_exceptions.md R214 refuses while a command runs. -/
theorem memWrite_busy {s : State} (busy : s.mode ≠ .idle) {a : SlotAddr} {v : Word}
    (guarded : (a = 0x00#8 ∧ (v = 0x00000001#32 ∨ v = 0x00000002#32 ∨ v = 0x00000003#32)) ∨
      (0x04 ≤ a.toNat ∧ a.toNat ≤ 0x0C)) : memWrite a v s = raiseError .busy s := by
  rcases guarded with ⟨rfl, legal⟩ | ⟨start, stop⟩
  · obtain ⟨p, rfl⟩ := (exists_command_iff fun p => v = p.word).mpr legal
    rw [memWrite_cmd (by decide), writeCmd_of_command ((commandOf_eq_some_iff _ p).mpr rfl), writeCommand_eq_busy busy]
  · by_cases key : a.toNat ≤ 0x07
    · obtain ⟨j, slot⟩ := slotOf_key_range start key
      rw [memWrite_key slot, writeKey, if_neg busy]
    · obtain ⟨j, slot⟩ := slotOf_blk_range (by omega) stop
      rw [memWrite_blk slot, writeBlk, if_neg busy]

theorem exec_command_busy {s : State} (busy : s.mode ≠ .idle) (p : Command) :
    exec p.instr s = .next { clockEdge 0x00#8 s s with err := true, errcode := if s.err then s.errcode else 2#4 } := by
  rw [exec_command, writeCommand_eq_busy busy, clockEdge_raiseError, errorNumber]

/-- Settles O13: the refused write records BUSY beside the edge of a read. -/
theorem busyWritesRefused : Obligations.BusyWritesRefused := by
  refine fun s busy => ⟨fun a v guarded => ⟨_, exec_rd a s, ?_⟩, _, exec_rd 0x00#8 s,
    exec_command_busy busy .expand, exec_command_busy busy .encrypt, exec_command_busy busy .decrypt⟩
  rw [exec_wr, memWrite_busy busy guarded, clockEdge_raiseError, errorNumber]

/-! ### Reset -/

/-- Settles O8: the fields are those of the reset edge; STATUS reads 0 by their values, EK by the mask on KEYRDY. -/
theorem resetEdgeFromAnyState : Obligations.ResetEdgeFromAnyState := by
  intro s rst
  refine ⟨_, step_reset rst, fun j => ?key, rfl, rfl, rfl, rfl, rfl, rfl, rfl, rfl, ?status, rfl,
    memRead_ek_of_not_keyrdy rfl, rfl, rfl⟩
  case key => simp
  case status => simp [statusWord, busy, modeCode]

/-! ### The interrupt line -/

theorem irq_iff (s : State) :
    irq s = true ↔ (s.done = true ∧ s.irqen.getLsbD 0 = true) ∨ (s.err = true ∧ s.irqen.getLsbD 1 = true) := by
  rw [irq, Bool.or_eq_true, Bool.and_eq_true, Bool.and_eq_true]

/-- Settles O35: the level, a refused write that sets ERR, and a STATUS write that clears DONE and ERR. -/
theorem irqFollowsStatus : Obligations.IrqFollowsStatus := by
  refine ⟨irq_iff, fun s idle enabled => ⟨_, exec_cmdWrite_illegal (by decide) s, ?raised⟩,
    fun s idle => ⟨_, exec_wr 0x01#8 0x0000000A#32 s, ?lowered⟩⟩ <;> rw [clockEdge_idle idle]
  case raised => exact (irq_iff _).mpr (.inr ⟨rfl, enabled⟩)
  case lowered =>
    rw [memWrite_status (by decide), irq, writeStatus_done, writeStatus_err]
    simp [clearsDone, clearsErr]

end Sys2Proof.Machine

/-! One edge of the block, whatever the cycle's instruction: what the host write and the round controller change. -/

namespace Sys2Proof.Machine

/-! ### The host write's part, with the instruction that makes it -/

/-- What the host part of an instruction does, as `HostEffect` says it, with the instruction named wherever only one
kind of instruction has the effect. -/
inductive BusEffect (s : State) : Instr → State → Prop where
  | none (i : Instr) : BusEffect s i s
  | error (i : Instr) (c : ErrorCode) : BusEffect s i (raiseError c s)
  | status (v : Word) : BusEffect s (.wr 0x01#8 v) (writeStatus v s)
  | irqen (i : Instr) (v : Word) : BusEffect s i (writeIrqen v s)
  | key (j : Fin 4) (v : Word) (idle : s.mode = .idle) :
      BusEffect s (.wr (BitVec.ofNat 8 (0x04 + j.val)) v) (setKey j v s)
  | blk (j : Fin 5) (v : Word) (idle : s.mode = .idle) :
      BusEffect s (.wr (BitVec.ofNat 8 (0x08 + j.val)) v) (setBlk j v s)
  | accept (i : Instr) (p : Command) (idle : s.mode = .idle) : BusEffect s i (Machine.accept p s)

theorem writeCommand_busEffect (i : Instr) (p : Command) (s : State) : BusEffect s i (writeCommand p s) := by
  unfold writeCommand
  split
  · exact .error i _
  · next notBusy =>
    split
    · exact .error i _
    · exact .accept i p (not_not.mp notBusy)

theorem memWrite_busEffect (a : SlotAddr) (v : Word) (s : State) : BusEffect s (.wr a v) (memWrite a v s) := by
  cases slot : slotOf a with
  | cmd =>
    rw [memWrite_cmd slot, writeCmd]
    split
    · exact .error _ _
    · exact writeCommand_busEffect _ _ s
  | status =>
    obtain rfl := addr_of_status slot
    rw [memWrite_status slot]
    exact .status v
  | irqen =>
    rw [memWrite_irqen slot]
    exact .irqen _ v
  | key j =>
    obtain rfl := addr_of_key slot
    rw [memWrite_key slot, writeKey]
    split
    · next idle => exact .key j v idle
    · exact .error _ _
  | blk j =>
    obtain rfl := addr_of_blk slot
    rw [memWrite_blk slot, writeBlk]
    split
    · next idle => exact .blk j v idle
    · exact .error _ _
  | ek t =>
    rw [memWrite_ek slot]
    exact .none _
  | reserved =>
    rw [memWrite_reserved slot]
    exact .none _

theorem hostPart_busEffect (i : Instr) (s : State) : BusEffect s i (hostPart i s) := by
  cases i with
  | expand => exact writeCommand_busEffect _ .expand s
  | encrypt => exact writeCommand_busEffect _ .encrypt s
  | decrypt => exact writeCommand_busEffect _ .decrypt s
  | rd a => exact .none _
  | wr a v => exact memWrite_busEffect a v s

@[simp] theorem writeStatus_ik (v : Word) (s : State) : (writeStatus v s).ik = s.ik := by
  rw [writeStatus_eq]

@[simp] theorem writeStatus_blk (v : Word) (s : State) : (writeStatus v s).blk = s.blk := by
  rw [writeStatus_eq]

@[simp] theorem writeStatus_keyrdy (v : Word) (s : State) : (writeStatus v s).keyrdy = s.keyrdy := by
  rw [writeStatus_eq]

/-- Only a STATUS write with bit 3 takes a recorded error away (60_exceptions.md R211, R222). -/
theorem BusEffect.error_kept {i : Instr} {s w : State} (effect : BusEffect s i w) (err : s.err = true)
    (noClear : ∀ v : Word, i = .wr 0x01#8 v → v.getLsbD 3 = false) : w.err = true ∧ w.errcode = s.errcode := by
  cases effect with
  | error _ c => exact ⟨rfl, by rw [raiseError_errcode, if_pos err]⟩
  | status v =>
    have keeps : clearsErr v = false := noClear v rfl
    rw [writeStatus_err, writeStatus_errcode, keeps]
    simp [err]
  | none | irqen | key | blk | accept => exact ⟨err, rfl⟩

theorem keyAddr_range (j : Fin 4) :
    0x04 ≤ (BitVec.ofNat 8 (0x04 + j.val)).toNat ∧ (BitVec.ofNat 8 (0x04 + j.val)).toNat ≤ 0x07 := by
  revert j
  decide

theorem blkAddr_range (j : Fin 5) :
    0x08 ≤ (BitVec.ofNat 8 (0x08 + j.val)).toNat ∧ (BitVec.ofNat 8 (0x08 + j.val)).toNat ≤ 0x0C := by
  revert j
  decide

/-- Only a KEY write in IDLE writes the key (10_state.md R21). -/
theorem BusEffect.ik_kept {i : Instr} {s w : State} (effect : BusEffect s i w)
    (noKeyWrite : s.mode ≠ .idle ∨ ∀ (a : SlotAddr) (v : Word), i = .wr a v → a.toNat < 0x04 ∨ 0x07 < a.toNat) :
    w.ik = s.ik := by
  cases effect with
  | key j v idle =>
    rcases noKeyWrite with busy | elsewhere
    · exact absurd idle busy
    · have outside := elsewhere _ v rfl
      have inside := keyAddr_range j
      omega
  | status => exact writeStatus_ik _ s
  | none | error | irqen | blk | accept => rfl

/-- Only a BLK write in IDLE is a host write of the block (10_state.md R22). -/
theorem BusEffect.blk_kept {i : Instr} {s w : State} (effect : BusEffect s i w)
    (noBlkWrite : s.mode ≠ .idle ∨ ∀ (a : SlotAddr) (v : Word), i = .wr a v → a.toNat < 0x08 ∨ 0x0C < a.toNat) :
    w.blk = s.blk := by
  cases effect with
  | blk j v idle =>
    rcases noBlkWrite with busy | elsewhere
    · exact absurd idle busy
    · have outside := elsewhere _ v rfl
      have inside := blkAddr_range j
      omega
  | status => exact writeStatus_blk _ s
  | none | error | irqen | key | accept => rfl

/-- The host part clears KEYRDY by a KEY write in IDLE or by starting EXPAND, and in no other way (10_state.md R28). -/
theorem BusEffect.keyrdy_kept {i : Instr} {s w : State} (effect : BusEffect s i w)
    (noStart : ¬(s.mode = .idle ∧ w.mode = .expand))
    (noKeyWrite : ∀ (a : SlotAddr) (v : Word), i = .wr a v → 0x04 ≤ a.toNat → a.toNat ≤ 0x07 → s.mode ≠ .idle) :
    w.keyrdy = s.keyrdy := by
  cases effect with
  | key j v idle => exact absurd idle (noKeyWrite _ v rfl (keyAddr_range j).1 (keyAddr_range j).2)
  | accept _ p idle =>
    have cipher : p ≠ .expand := by
      rintro rfl
      exact noStart ⟨idle, rfl⟩
    rw [accept_keyrdy, if_neg cipher]
  | status => exact writeStatus_keyrdy _ s
  | none | error | irqen | blk => rfl

/-- EXPAND starts with KEYRDY clear (10_state.md R28). -/
theorem BusEffect.keyrdy_of_expand_started {i : Instr} {s w : State} (effect : BusEffect s i w) (idle : s.mode = .idle)
    (started : w.mode = .expand) : w.keyrdy = false := by
  cases effect with
  | accept _ p =>
    cases p with
    | expand => rfl
    | encrypt | decrypt => simp [modeOf] at started
  | status => simp [writeStatus_mode, idle] at started
  | none | error | irqen | key | blk => simp [idle] at started

/-- Settles O15: the round controller leaves the error record to the host write. -/
theorem firstErrorKept : Obligations.FirstErrorKept := by
  intro i s err noClear
  obtain ⟨-, edgeErr, edgeErrcode, -, -⟩ := fsmUpdate_frame s (hostPart i s)
  obtain ⟨hostErr, hostErrcode⟩ := (hostPart_busEffect i s).error_kept err noClear
  exact ⟨_, exec_eq_clockEdge i s, edgeErr.trans hostErr, edgeErrcode.trans hostErrcode⟩

/-! ### The round controller's part -/

/-- Below step 79 the counter rises and the mode stays (43_cipher_engine.md R163). -/
theorem fsmUpdate_below {p : State} (busy : p.mode ≠ .idle) (below : p.ctr.val < 79) (w : State) :
    (fsmUpdate p w).mode = w.mode ∧ (fsmUpdate p w).ctr.val = p.ctr.val + 1 := by
  cases mode : p.mode with
  | idle => exact absurd mode busy
  | expand | encrypt | decrypt =>
    simp [fsmUpdate_expand, fsmUpdate_encrypt, fsmUpdate_decrypt, mode, advance_below below]

/-- At step 79 the command completes (43_cipher_engine.md R167). -/
theorem fsmUpdate_last {p : State} (busy : p.mode ≠ .idle) (last : p.ctr.val = 79) (w : State) :
    (fsmUpdate p w).mode = .idle ∧ (fsmUpdate p w).ctr = 0 ∧ (fsmUpdate p w).done = true ∧
    (p.mode = .expand → (fsmUpdate p w).keyrdy = true) := by
  cases mode : p.mode with
  | idle => exact absurd mode busy
  | expand | encrypt | decrypt =>
    simp [fsmUpdate_expand, fsmUpdate_encrypt, fsmUpdate_decrypt, mode, advance_last last]

/-- KEYRDY is the round controller's only where EXPAND completes (10_state.md R28). -/
theorem fsmUpdate_keyrdy {p : State} (notCompleting : ¬(p.mode = .expand ∧ p.ctr.val = 79)) (w : State) :
    (fsmUpdate p w).keyrdy = w.keyrdy := by
  cases mode : p.mode with
  | idle => rw [fsmUpdate_idle mode]
  | expand =>
    have below : p.ctr.val < 79 := by
      have bound := p.ctr.isLt
      have notLast : p.ctr.val ≠ 79 := fun last => notCompleting ⟨mode, last⟩
      omega
    simp [fsmUpdate_expand mode, advance_below below]
  | encrypt => exact (fsmUpdate_keeps_ek_keyrdy (.inl mode) w).2
  | decrypt => exact (fsmUpdate_keeps_ek_keyrdy (.inr mode) w).2

/-- In IDLE and during EXPAND the round controller leaves the block to the host write (10_state.md R22). -/
theorem fsmUpdate_keeps_blk {p : State} (notCiphering : p.mode = .expand ∨ p.mode = .idle) (w : State) :
    (fsmUpdate p w).blk = w.blk := by
  rcases notCiphering with expanding | idle
  · rw [fsmUpdate_expand expanding, advance]
    split <;> rfl
  · rw [fsmUpdate_idle idle]

/-- Outside EXPAND the round controller writes neither the subkeys nor the window (10_state.md R23). -/
theorem fsmUpdate_keeps_store {p : State} (notExpanding : p.mode ≠ .expand) (w : State) :
    (fsmUpdate p w).ek = w.ek ∧ (fsmUpdate p w).win = w.win := by
  cases mode : p.mode with
  | idle => rw [fsmUpdate_idle mode]; exact ⟨rfl, rfl⟩
  | expand => exact absurd mode notExpanding
  | encrypt | decrypt =>
    simp only [fsmUpdate_encrypt, fsmUpdate_decrypt, mode, advance]
    split <;> exact ⟨rfl, rfl⟩

/-- The subkey of the step is written and no other (42_key_schedule.md R144). -/
theorem fsmUpdate_expand_ek {p : State} (expanding : p.mode = .expand) (w : State) :
    (fsmUpdate p w).ek =
      p.ek.set p.ctr (add32 (expanderWord p.ik p.win p.ctr) (roundConstant (quartile p.ctr))) := by
  rw [fsmUpdate_expand expanding, advance]
  split <;> rfl

/-- Below step 79 the window shifts (42_key_schedule.md R144); after the last step it is free (log 6). -/
theorem fsmUpdate_expand_win {p : State} (expanding : p.mode = .expand) (below : p.ctr.val < 79) (w : State) :
    (fsmUpdate p w).win = shiftWindow p.win (expanderWord p.ik p.win p.ctr) := by
  rw [fsmUpdate_expand expanding, advance_below below]
  rfl

/-! ### The settled statements -/

/-- Settles O27: the round controller sets KEYRDY at EXPAND's completion; every other edge has the host part's. -/
theorem keyReadyChangesOnlyAsStated : Obligations.KeyReadyChangesOnlyAsStated := by
  intro i s
  have effect := hostPart_busEffect i s
  refine ⟨_, exec_eq_clockEdge i s, ?completes, ?starts, ?keyWrite, ?keeps⟩ <;>
    simp only [clockEdge_keyrdy, clockEdge_mode]
  case completes =>
    intro expanding last
    obtain ⟨-, -, -, keyrdy⟩ := fsmUpdate_last (by simp [expanding]) last (hostPart i s)
    exact keyrdy expanding
  case starts =>
    intro idle
    rw [fsmUpdate_idle idle]
    exact effect.keyrdy_of_expand_started idle
  case keyWrite =>
    rintro idle a v rfl start stop
    obtain ⟨j, slot⟩ := slotOf_key_range start stop
    rw [fsmUpdate_idle idle, hostPart, memWrite_key slot, writeKey, if_pos idle, setKey_keyrdy]
  case keeps =>
    intro notCompleting noStart noKeyWrite
    rw [fsmUpdate_keyrdy notCompleting]
    refine effect.keyrdy_kept (fun started => noStart ?_) noKeyWrite
    obtain ⟨idle, expand⟩ := started
    exact ⟨idle, by rw [fsmUpdate_idle idle, expand]⟩

/-- Settles O28: the round controller never writes the key, and writes the block only while a cipher runs. -/
theorem keyAndBlockFrames : Obligations.KeyAndBlockFrames := by
  intro i s
  have effect := hostPart_busEffect i s
  obtain ⟨edgeIk, -⟩ := fsmUpdate_frame s (hostPart i s)
  refine ⟨_, exec_eq_clockEdge i s, fun noKeyWrite => edgeIk.trans (effect.ik_kept noKeyWrite), ?_⟩
  rintro (expanding | ⟨idle, noBlkWrite⟩)
  · exact (fsmUpdate_keeps_blk (.inl expanding) _).trans (effect.blk_kept (.inl (by simp [expanding])))
  · exact (fsmUpdate_keeps_blk (.inr idle) _).trans (effect.blk_kept (.inr noBlkWrite))

/-- Settles O30: neither part of an edge writes the store or the window outside EXPAND. -/
theorem storeKeptOutsideExpand : Obligations.StoreKeptOutsideExpand := by
  intro i s notExpanding
  obtain ⟨edgeEk, edgeWin⟩ := fsmUpdate_keeps_store notExpanding (hostPart i s)
  obtain ⟨hostEk, hostWin, -⟩ := (hostPart_effect i s).frame
  exact ⟨_, exec_eq_clockEdge i s, edgeEk.trans hostEk, edgeWin.trans hostWin⟩

/-- Settles O31: a host write does not touch the mode of a running command, and the round controller goes on. -/
theorem runningCommandAdvances : Obligations.RunningCommandAdvances := by
  intro i s busy
  obtain ⟨hostMode, -⟩ := (hostPart_effect i s).busy_frame busy
  refine ⟨_, exec_eq_clockEdge i s, fun below => ?_, fun last => fsmUpdate_last busy last _⟩
  obtain ⟨mode, ctr⟩ := fsmUpdate_below busy below (hostPart i s)
  exact ⟨mode.trans hostMode, ctr⟩

/-- Settles O34: the expander computes from the state before the edge; the rest is the frame of the edge. -/
theorem expanderStepPerEdge : Obligations.ExpanderStepPerEdge := by
  intro i s expanding
  obtain ⟨ik, -, -, -, inputs⟩ := fsmUpdate_frame s (hostPart i s)
  obtain ⟨-, -, hostIk, hostBlk, -⟩ := (hostPart_effect i s).busy_frame (by simp [expanding])
  obtain ⟨-, -, hostInputs, -⟩ := (hostPart_effect i s).frame
  refine ⟨_, expanderWord s.ik s.win s.ctr, exec_eq_clockEdge i s, rfl, ?written, ?others, ?window, ik.trans hostIk,
    (fsmUpdate_keeps_blk (.inl expanding) _).trans hostBlk, inputs.trans hostInputs⟩
  case written => simp [fsmUpdate_expand_ek expanding]
  case others =>
    intro u other
    have apart : s.ctr.val ≠ u.val := fun same => other (Fin.ext same.symm)
    simp [fsmUpdate_expand_ek expanding, Vector.getElem_set_ne, apart]
  case window =>
    intro below
    rw [clockEdge_win, fsmUpdate_expand_win expanding below]
    exact ⟨shiftWindow_top _ _, fun j => shiftWindow_below _ _ j.val (by omega)⟩

end Sys2Proof.Machine

/-! The invariant of the block: at reset, and over every step. -/

namespace Sys2Proof.Machine

/-! ### One edge of a running command -/

theorem ciphering_of_running {s : State} (busy : s.mode ≠ .idle) (notExpanding : s.mode ≠ .expand) :
    s.mode = .encrypt ∨ s.mode = .decrypt := by
  cases mode : s.mode with
  | idle => exact absurd mode busy
  | expand => exact absurd mode notExpanding
  | encrypt => exact .inl rfl
  | decrypt => exact .inr rfl

/-- A running command's edge goes on to the next step, or completes the command (43_cipher_engine.md R163, R167). -/
theorem clockEdge_running {s w : State} (busy : s.mode ≠ .idle) (host : HostEffect s w) (a : SlotAddr) :
    (s.ctr.val < 79 ∧ (clockEdge a s w).mode = s.mode ∧ (clockEdge a s w).ctr.val = s.ctr.val + 1) ∨
    (s.ctr.val = 79 ∧ (clockEdge a s w).mode = .idle ∧ (clockEdge a s w).ctr = 0 ∧ (clockEdge a s w).done = true) := by
  obtain ⟨hostMode, -⟩ := host.busy_frame busy
  by_cases below : s.ctr.val < 79
  · obtain ⟨mode, ctr⟩ := fsmUpdate_below busy below w
    exact .inl ⟨below, mode.trans hostMode, ctr⟩
  · have last : s.ctr.val = 79 := by have bound := s.ctr.isLt; omega
    obtain ⟨mode, ctr, done, -⟩ := fsmUpdate_last busy last w
    exact .inr ⟨last, mode, ctr, done⟩

theorem clockEdge_inputs_kept {s w : State} (host : HostEffect s w) (a : SlotAddr) :
    (clockEdge a s w).inputs = s.inputs := by
  obtain ⟨-, -, -, -, inputs⟩ := fsmUpdate_frame s w
  obtain ⟨-, -, hostInputs, -⟩ := host.frame
  exact inputs.trans hostInputs

theorem clockEdge_ik_kept {s w : State} (busy : s.mode ≠ .idle) (host : HostEffect s w) (a : SlotAddr) :
    (clockEdge a s w).ik = s.ik := by
  obtain ⟨ik, -⟩ := fsmUpdate_frame s w
  obtain ⟨-, -, hostIk, -⟩ := host.busy_frame busy
  exact ik.trans hostIk

/-! ### The expander keeps the window and the store right -/

/-- With the window right, the expander makes the raw word of its step (42_key_schedule.md R144, R145). -/
theorem expanderWord_eq_raw {s : State} (expanding : s.mode = .expand) (window : WindowHolds s) :
    expanderWord s.ik s.win s.ctr = raw s.ik s.ctr.val := by
  unfold expanderWord
  split
  · next early => rw [raw_of_lt_16 s.ik early]
  · next late =>
    have tap (j : Fin 16) : s.win[j] = raw s.ik (s.ctr.val + j.val - 16) := window expanding j (by omega)
    have tap13 : s.win[13] = raw s.ik (s.ctr.val - 3) := tap 13
    have tap8 : s.win[8] = raw s.ik (s.ctr.val - 8) := tap 8
    have tap2 : s.win[2] = raw s.ik (s.ctr.val - 14) := tap 2
    have tap0 : s.win[0] = raw s.ik (s.ctr.val - 16) := tap 0
    rw [tap13, tap8, tap2, tap0, raw_of_16_le s.ik (not_lt.mp late)]

theorem windowHolds_clockEdge {s w : State} (expanding : s.mode = .expand) (below : s.ctr.val < 79)
    (host : HostEffect s w) (window : WindowHolds s) (a : SlotAddr) : WindowHolds (clockEdge a s w) := by
  have busy : s.mode ≠ .idle := by simp [expanding]
  obtain ⟨-, ctr⟩ := fsmUpdate_below busy below w
  intro _ j
  rw [clockEdge_ik_kept busy host, clockEdge_ctr, ctr, clockEdge_win, fsmUpdate_expand_win expanding below,
    expanderWord_eq_raw expanding window]
  intro written
  by_cases top : j.val = 15
  · obtain rfl : j = 15 := Fin.ext top
    exact shiftWindow_top s.win _
  · have inside : j.val + 1 < 16 := by omega
    have older : s.win[j.val + 1] = raw s.ik (s.ctr.val + (j.val + 1) - 16) :=
      window expanding ⟨j.val + 1, inside⟩ (by simp only; omega)
    rw [Fin.getElem_fin, shiftWindow_below s.win _ j.val inside, older]
    congr 1
    omega

/-- An edge of EXPAND leaves the subkeys right up to the step's own. -/
theorem store_filled_through {s w : State} (expanding : s.mode = .expand) (window : WindowHolds s)
    (filled : StoreFilled s) {u : Fin 80} (written : u.val ≤ s.ctr.val) :
    (fsmUpdate s w).ek[u] = (expand s.ik)[u] := by
  rw [fsmUpdate_expand_ek expanding, expanderWord_eq_raw expanding window]
  by_cases now : u = s.ctr
  · subst now
    rw [expand_get, Fin.getElem_fin, Vector.getElem_set_self]
  · have apart : s.ctr.val ≠ u.val := fun same => now (Fin.ext same.symm)
    rw [Fin.getElem_fin, Vector.getElem_set_ne _ _ apart]
    exact filled expanding u (by omega)

theorem storeFilled_clockEdge {s w : State} (expanding : s.mode = .expand) (below : s.ctr.val < 79)
    (host : HostEffect s w) (window : WindowHolds s) (filled : StoreFilled s) (a : SlotAddr) :
    StoreFilled (clockEdge a s w) := by
  have busy : s.mode ≠ .idle := by simp [expanding]
  obtain ⟨-, ctr⟩ := fsmUpdate_below busy below w
  intro _ u
  rw [clockEdge_ik_kept busy host, clockEdge_ctr, ctr, clockEdge_ek]
  exact fun written => store_filled_through expanding window filled (Nat.le_of_lt_succ written)

/-- The last step of EXPAND leaves the whole expanded key (42_key_schedule.md R143). -/
theorem ek_eq_expand_of_last {s : State} (expanding : s.mode = .expand) (last : s.ctr.val = 79)
    (window : WindowHolds s) (filled : StoreFilled s) (w : State) : (fsmUpdate s w).ek = expand s.ik := by
  apply Vector.ext
  intro u bound
  exact store_filled_through expanding window filled (u := ⟨u, bound⟩) (by simp only; omega)

/-! ### A host write in IDLE -/

/-- The error record takes only the values of 60_exceptions.md R212. -/
theorem HostEffect.errorRecordLegal {s w : State} (host : HostEffect s w) (legal : ErrorRecordLegal s) :
    ErrorRecordLegal w := by
  obtain ⟨none, some⟩ := legal
  cases host with
  | error c =>
    refine ⟨fun noErr => absurd noErr (by simp), fun _ => ?_⟩
    rw [raiseError_errcode]
    split
    · next recorded => exact some recorded
    · cases c <;> decide
  | status v =>
    rw [ErrorRecordLegal, writeStatus_err, writeStatus_errcode]
    cases clearsErr v with
    | true => simp
    | false => simpa using ⟨none, some⟩
  | none | irqen | key | blk | accept => exact ⟨none, some⟩

theorem HostEffect.counterLegal {s w : State} (host : HostEffect s w) (legal : CounterLegal s) : CounterLegal w := by
  cases host with
  | status v => rw [CounterLegal, writeStatus_eq]; exact legal
  | accept => exact fun _ => rfl
  | none | error | irqen | key | blk => exact legal

/-- In IDLE a key write clears KEYRDY with the key, and a command that needs the subkeys starts only with KEYRDY. -/
theorem HostEffect.keyStoreLegal {s w : State} (host : HostEffect s w) (idle : s.mode = .idle)
    (legal : KeyStoreLegal s) : KeyStoreLegal w := by
  obtain ⟨expanded, keyed⟩ := legal
  cases host with
  | status v => rw [KeyStoreLegal, writeStatus_eq]; exact ⟨expanded, keyed⟩
  | key j v => exact ⟨fun ready => absurd ready (by simp), by simp [idle]⟩
  | accept p _ ready =>
    cases p with
    | expand => exact ⟨fun ready => absurd ready (by simp), by simp [modeOf]⟩
    | encrypt | decrypt =>
      have keyrdy : s.keyrdy = true := by simpa using ready
      exact ⟨fun _ => ⟨(expanded keyrdy).1, by simp [modeOf]⟩, fun _ => by simp [keyrdy]⟩
  | none | error | irqen | blk => exact ⟨expanded, keyed⟩

/-- In IDLE a host write that leaves EXPAND running has just started it. -/
theorem HostEffect.ctr_of_expand_started {s w : State} (host : HostEffect s w) (idle : s.mode = .idle)
    (started : w.mode = .expand) : w.ctr.val = 0 := by
  cases host with
  | accept => rfl
  | status => simp [writeStatus_mode, idle] at started
  | none | error | irqen | key | blk => simp [idle] at started

theorem HostEffect.inv_of_idle {s w : State} (host : HostEffect s w) (idle : s.mode = .idle) (inv : Inv s) : Inv w := by
  obtain ⟨counter, errors, keys, -, -⟩ := inv
  refine ⟨host.counterLegal counter, host.errorRecordLegal errors, host.keyStoreLegal idle keys, ?window, ?filled⟩
  case window =>
    intro started j written
    have first := host.ctr_of_expand_started idle started
    omega
  case filled =>
    intro started u written
    have first := host.ctr_of_expand_started idle started
    omega

/-! ### Every edge -/

/-- EXPAND runs with KEYRDY clear and sets it with the last subkey; a cipher leaves the key, the subkeys and KEYRDY. -/
theorem keyStoreLegal_clockEdge {s w : State} (busy : s.mode ≠ .idle) (host : HostEffect s w) (inv : Inv s)
    (a : SlotAddr) : KeyStoreLegal (clockEdge a s w) := by
  obtain ⟨-, -, ⟨expanded, keyed⟩, window, filled⟩ := inv
  have ik := clockEdge_ik_kept busy host a
  have next := clockEdge_running busy host a
  by_cases expanding : s.mode = .expand
  · rcases next with ⟨below, mode, -⟩ | ⟨last, mode, -⟩
    · have notReady : (clockEdge a s w).keyrdy = false := by
        obtain ⟨-, -, -, -, hostKeyrdy⟩ := host.busy_frame busy
        rw [clockEdge_keyrdy, fsmUpdate_keyrdy (by omega), hostKeyrdy, ← Bool.not_eq_true]
        exact fun ready => (expanded ready).2 expanding
      rw [KeyStoreLegal, notReady, mode, expanding]
      simp
    · have ek : (clockEdge a s w).ek = expand s.ik := ek_eq_expand_of_last expanding last window filled w
      rw [KeyStoreLegal, ek, ik, mode]
      simp
  · have ciphering := ciphering_of_running busy expanding
    obtain ⟨-, ek, keyrdy, -⟩ := clockEdge_keeps_key_material ciphering host a
    have notExpand : (clockEdge a s w).mode ≠ .expand := by
      rcases next with ⟨-, mode, -⟩ | ⟨-, mode, -⟩ <;> rw [mode]
      · exact expanding
      · decide
    have ready : s.keyrdy = true := keyed ciphering
    exact ⟨fun _ => ⟨by rw [ek, ik, (expanded ready).1], notExpand⟩, fun _ => by rw [keyrdy, ready]⟩

theorem inv_clockEdge_of_busy {s w : State} (busy : s.mode ≠ .idle) (host : HostEffect s w) (inv : Inv s)
    (a : SlotAddr) : Inv (clockEdge a s w) := by
  have keys := keyStoreLegal_clockEdge busy host inv a
  obtain ⟨-, errors, -, window, filled⟩ := inv
  obtain ⟨-, err, errcode, -, -⟩ := fsmUpdate_frame s w
  have hostErrors : ErrorRecordLegal (clockEdge a s w) := by
    rw [ErrorRecordLegal, clockEdge_err, clockEdge_errcode, err, errcode]
    exact host.errorRecordLegal errors
  rcases clockEdge_running busy host a with ⟨below, mode, -⟩ | ⟨-, mode, ctr, -⟩
  · refine ⟨fun idle => absurd (mode.symm.trans idle) busy, hostErrors, keys, fun running => ?_, fun running => ?_⟩
    · exact windowHolds_clockEdge (mode.symm.trans running) below host window a running
    · exact storeFilled_clockEdge (mode.symm.trans running) below host window filled a running
  · have stopped : (clockEdge a s w).mode ≠ .expand := by rw [mode]; decide
    exact ⟨fun _ => ctr, hostErrors, keys, fun running => absurd running stopped, fun running => absurd running stopped⟩

theorem inv_clockEdge {s w : State} (host : HostEffect s w) (inv : Inv s) (a : SlotAddr) : Inv (clockEdge a s w) := by
  by_cases idle : s.mode = .idle
  · rw [clockEdge_idle idle]
    exact host.inv_of_idle idle inv
  · exact inv_clockEdge_of_busy idle host inv a

/-- IDLE with everything at its reset value meets the invariant, whatever the store and the window hold. -/
theorem inv_of_cleared {s : State} (idle : s.mode = .idle) (ctr : s.ctr = 0) (keyrdy : s.keyrdy = false)
    (err : s.err = false) (errcode : s.errcode = 0#4) : Inv s := by
  refine ⟨fun _ => ctr, ⟨fun _ => errcode, fun set => ?_⟩, ⟨fun ready => ?_, fun ciphering => ?_⟩, fun expanding => ?_,
    fun expanding => ?_⟩
  · simp [err] at set
  · simp [keyrdy] at ready
  · simp [idle] at ciphering
  · simp [idle] at expanding
  · simp [idle] at expanding

/-- Settles O50: reset is IDLE with no key schedule and no error. -/
theorem invariantAtReset : Obligations.InvariantAtReset := inv_of_cleared rfl rfl rfl rfl rfl

/-- Settles O51: a step is a reset edge or a clock edge, and each leaves the invariant. -/
theorem stepKeepsInvariant : Obligations.StepKeepsInvariant := by
  intro s t inv stepped
  rcases step_cases stepped with ⟨-, rfl⟩ | ⟨-, rfl⟩
  · exact inv_of_cleared rfl rfl rfl rfl rfl
  · exact inv_clockEdge (s := takeInput s) (hostPart_effect _ _) inv _

end Sys2Proof.Machine

/-! Whole commands: the acceptance edge and the 80 edges after it, whatever the host does in them. -/

namespace Sys2Proof.Machine

/-! ### Several cycles -/

/-- `m` cycles and then `n` more. -/
theorem cycles_add {m : Nat} {s t : State} (n : Nat) (ran : cycles m s = .next t) : cycles (m + n) s = cycles n t := by
  induction m generalizing s with
  | zero =>
    cases ran
    rw [Nat.zero_add]
  | succ m ih =>
    obtain ⟨u, first⟩ := step_answers_next s
    rw [cycles_succ m first] at ran
    rw [Nat.add_right_comm, cycles_succ (m + n) first, ih ran]

theorem cycles_succ_last {n : Nat} {s t u : State} (ran : cycles n s = .next t) (last : step t = .next u) :
    cycles (n + 1) s = .next u := by
  rw [cycles_add 1 ran, cycles_succ 0 last, cycles_zero]

/-- No reset in `n + 1` cycles: none in the last. -/
theorem NoReset.last {n : Nat} {s t : State} (noReset : NoReset (n + 1) s) (taken : t.inputs = s.inputs.drop n) :
    (presented t).rst = false := by
  have one : NoReset 1 t := by
    intro p present
    rw [taken, List.take_drop] at present
    exact noReset p (List.mem_of_mem_drop present)
  exact one.first

theorem NoReset.of_succ {n : Nat} {s : State} (noReset : NoReset (n + 1) s) : NoReset n s := fun p present =>
  noReset p (List.take_subset_take_left _ (Nat.le_succ n) present)

/-! ### A command that is accepted, and what its edges keep -/

/-- The coming cycle presents a command, and the block accepts it (60_exceptions.md R213). -/
structure Starts (p : Command) (s : State) : Prop where
  idle : s.mode = .idle
  ready : p = .expand ∨ s.keyrdy = true
  presents : decodePorts (presented s) = p.instr

/-- A property of the states in which the command runs: it holds after acceptance, every edge below step 79 keeps it,
and it looks neither at `rdata` nor at the host's inputs. -/
structure RunInvariant (p : Command) (s : State) (Holds : State → Prop) : Prop where
  accepted (r : Word) : Holds { accept p (takeInput s) with rdata := r }
  taken (t : State) : Holds t → Holds (takeInput t)
  kept (t w : State) (a : SlotAddr) :
    t.mode = modeOf p → t.ctr.val < 79 → HostEffect t w → Holds t → Holds (clockEdge a t w)

section
variable {p : Command} {s : State} {Holds : State → Prop}

/-- The one induction over a command's cycles: `k` edges after acceptance it runs at step `k`. -/
theorem command_runs (starts : Starts p s) (inv : RunInvariant p s Holds) {k : Nat} (bound : k ≤ 79)
    (noReset : NoReset (k + 1) s) :
    ∃ t, cycles (k + 1) s = .next t ∧ t.mode = modeOf p ∧ t.ctr.val = k ∧ t.inputs = s.inputs.drop (k + 1) ∧
      Holds t := by
  induction k with
  | zero =>
    have edge : step s = .next { accept p (takeInput s) with rdata := memRead (takeInput s) 0x00#8 } := by
      rw [step_noReset noReset.first, starts.presents]
      exact exec_command_accepted (s := takeInput s) starts.idle starts.ready
    exact ⟨_, cycles_succ 0 edge, rfl, rfl, List.drop_one.symm, inv.accepted _⟩
  | succ k ih =>
    obtain ⟨t, ran, mode, ctr, inputs, holds⟩ := ih (by omega) noReset.of_succ
    obtain ⟨a, w, host, edge⟩ := step_clockEdge (noReset.last inputs)
    have busy : (takeInput t).mode ≠ .idle := by rw [takeInput_mode, mode]; exact modeOf_ne_idle p
    have below : (takeInput t).ctr.val < 79 := by rw [takeInput_ctr]; omega
    refine ⟨_, cycles_succ_last ran edge, ?_, ?_, ?_, inv.kept _ w a mode below host (inv.taken t holds)⟩
    · obtain ⟨nextMode, -⟩ := fsmUpdate_below busy below w
      obtain ⟨hostMode, -⟩ := host.busy_frame busy
      exact nextMode.trans (hostMode.trans mode)
    · obtain ⟨-, nextCtr⟩ := fsmUpdate_below busy below w
      rw [clockEdge_ctr, nextCtr, takeInput_ctr, ctr]
    · rw [clockEdge_inputs_kept host, takeInput_inputs, inputs, List.tail_drop]

/-- The 81st cycle is the edge of step 79, from a state that meets the command's invariant. -/
theorem command_last_edge (starts : Starts p s) (inv : RunInvariant p s Holds) (noReset : NoReset 81 s) :
    ∃ (t w : State) (a : SlotAddr), cycles 81 s = .next (clockEdge a t w) ∧ HostEffect t w ∧ t.mode = modeOf p ∧
      t.ctr.val = 79 ∧ Holds t ∧ (clockEdge a t w).inputs = s.inputs.drop 81 := by
  obtain ⟨t, ran, mode, ctr, inputs, holds⟩ := command_runs starts inv (le_refl 79) noReset.of_succ
  obtain ⟨a, w, host, edge⟩ := step_clockEdge (noReset.last inputs)
  refine ⟨takeInput t, w, a, cycles_succ_last ran edge, host, mode, ctr, inv.taken t holds, ?_⟩
  rw [clockEdge_inputs_kept host, takeInput_inputs, inputs, List.tail_drop]

end

/-! ### EXPAND -/

/-- What holds while EXPAND, started from `start`, runs: the window and the store are right for the key of the start. -/
structure Expanding (start t : State) : Prop where
  ik : t.ik = start.ik
  blk : t.blk = start.blk
  window : WindowHolds t
  filled : StoreFilled t

theorem expanding_runInvariant (s : State) : RunInvariant .expand s (Expanding s) where
  accepted r := {
    ik := rfl
    blk := rfl
    window := by
      intro _ j written
      simp only [accept_ctr, Fin.val_zero] at written
      omega
    filled := by
      intro _ u written
      simp at written }
  taken _ holds := ⟨holds.ik, holds.blk, holds.window, holds.filled⟩
  kept t w a expanding below host holds := by
    have busy : t.mode ≠ .idle := by simp [expanding, modeOf]
    obtain ⟨-, -, -, hostBlk, -⟩ := host.busy_frame busy
    exact {
      ik := (clockEdge_ik_kept busy host a).trans holds.ik
      blk := (fsmUpdate_keeps_blk (.inl expanding) w).trans (hostBlk.trans holds.blk)
      window := windowHolds_clockEdge expanding below host holds.window a
      filled := storeFilled_clockEdge expanding below host holds.window holds.filled a }

/-- Settles O46: 79 edges keep the window and the filled part of the store right; the last one fills it. -/
theorem expandCommandFillsStore : Obligations.ExpandCommandFillsStore := by
  intro s idle noReset presents
  obtain ⟨t, w, a, ran, host, expanding, last, holds, inputs⟩ :=
    command_last_edge ⟨idle, .inl rfl, presents⟩ (expanding_runInvariant s) noReset
  have busy : t.mode ≠ .idle := by simp [expanding, modeOf]
  obtain ⟨mode, ctr, done, keyrdy⟩ := fsmUpdate_last busy last w
  obtain ⟨-, -, -, hostBlk, -⟩ := host.busy_frame busy
  have ek := ek_eq_expand_of_last expanding last holds.window holds.filled w
  rw [holds.ik] at ek
  exact ⟨_, ran, ek, keyrdy expanding, done, mode, ctr, (clockEdge_ik_kept busy host a).trans holds.ik,
    (fsmUpdate_keeps_blk (.inl expanding) w).trans (hostBlk.trans holds.blk), inputs⟩

/-! ### ENCRYPT and DECRYPT -/

/-- The first `n` of the 80 rounds. -/
def roundsBefore (round : Block → Fin 80 → Block) (n : Nat) (b : Block) : Block :=
  ((List.finRange 80).take n).foldl round b

theorem roundsBefore_succ (round : Block → Fin 80 → Block) (t : Fin 80) (b : Block) :
    roundsBefore round (t.val + 1) b = round (roundsBefore round t.val b) t := by
  have inside : t.val < (List.finRange 80).length := by rw [List.length_finRange]; exact t.isLt
  rw [roundsBefore, List.take_succ_eq_append_getElem inside, List.foldl_append, List.getElem_finRange]
  rfl

theorem roundsBefore_80 (round : Block → Fin 80 → Block) (b : Block) :
    roundsBefore round 80 b = (List.finRange 80).foldl round b := by
  rw [roundsBefore, List.take_of_length_le (by rw [List.length_finRange])]

/-- `round` is what an edge of the cipher `p` does to the block while the store is `ek`. -/
def IsRoundOf (p : Command) (ek : Vector Word 80) (round : Block → Fin 80 → Block) : Prop :=
  ∀ t w : State, t.mode = modeOf p → t.ek = ek → (fsmUpdate t w).blk = round t.blk t.ctr

theorem encRound_isRoundOf (ek : Vector Word 80) : IsRoundOf .encrypt ek fun b t => encRound b ek[t] t := by
  rintro t w encrypting rfl
  exact fsmUpdate_encrypt_blk encrypting w

theorem decRound_isRoundOf (ek : Vector Word 80) :
    IsRoundOf .decrypt ek fun b i => decRound b ek[decSubkeyIndex i] i := by
  rintro t w decrypting rfl
  exact fsmUpdate_decrypt_blk decrypting w

/-- What holds while a cipher, started from `start`, runs: the block has gone through the rounds before `ctr`. -/
structure Ciphering (start : State) (round : Block → Fin 80 → Block) (t : State) : Prop where
  ik : t.ik = start.ik
  ek : t.ek = start.ek
  keyrdy : t.keyrdy = true
  blk : t.blk = roundsBefore round t.ctr.val start.blk

section
variable {p : Command} {s : State} {round : Block → Fin 80 → Block}

theorem modeOf_cipher (cipher : p ≠ .expand) : modeOf p = .encrypt ∨ modeOf p = .decrypt := by
  cases p with
  | expand => exact absurd rfl cipher
  | encrypt => exact .inl rfl
  | decrypt => exact .inr rfl

/-- An edge of a running cipher takes the block through one more round and keeps the rest. -/
theorem ciphering_clockEdge (cipher : p ≠ .expand) (isRound : IsRoundOf p s.ek round) {t w : State}
    (running : t.mode = modeOf p) (host : HostEffect t w) (holds : Ciphering s round t) (a : SlotAddr) :
    (clockEdge a t w).ik = s.ik ∧ (clockEdge a t w).ek = s.ek ∧ (clockEdge a t w).keyrdy = true ∧
    (clockEdge a t w).blk = roundsBefore round (t.ctr.val + 1) s.blk := by
  obtain ⟨ik, ek, keyrdy, -⟩ := clockEdge_keeps_key_material (running ▸ modeOf_cipher cipher) host a
  refine ⟨ik.trans holds.ik, ek.trans holds.ek, keyrdy.trans holds.keyrdy, ?_⟩
  rw [clockEdge_blk, isRound t w running holds.ek, holds.blk, roundsBefore_succ]

theorem ciphering_runInvariant (cipher : p ≠ .expand) (keyrdy : s.keyrdy = true) (isRound : IsRoundOf p s.ek round) :
    RunInvariant p s (Ciphering s round) where
  accepted r := { ik := rfl, ek := rfl, blk := rfl, keyrdy := by simp [cipher, keyrdy] }
  taken _ holds := ⟨holds.ik, holds.ek, holds.keyrdy, holds.blk⟩
  kept t w a running below host holds := by
    have busy : t.mode ≠ .idle := running ▸ modeOf_ne_idle p
    obtain ⟨ik, ek, ready, blk⟩ := ciphering_clockEdge cipher isRound running host holds a
    obtain ⟨-, ctr⟩ := fsmUpdate_below busy below w
    exact ⟨ik, ek, ready, by rw [clockEdge_ctr, ctr, blk]⟩

/-- A whole cipher command: 81 cycles take the block through the 80 rounds (43_cipher_engine.md R168, R169). -/
theorem cipher_command (cipher : p ≠ .expand) (isRound : IsRoundOf p s.ek round) (idle : s.mode = .idle)
    (keyrdy : s.keyrdy = true) (noReset : NoReset 81 s) (presents : decodePorts (presented s) = p.instr) :
    ∃ t, cycles 81 s = .next t ∧ t.blk = (List.finRange 80).foldl round s.blk ∧ t.done = true ∧ t.mode = .idle ∧
      t.ctr = 0 ∧ t.keyrdy = true ∧ t.ik = s.ik ∧ t.ek = s.ek ∧ t.inputs = s.inputs.drop 81 := by
  obtain ⟨t, w, a, ran, host, running, last, holds, inputs⟩ :=
    command_last_edge ⟨idle, .inr keyrdy, presents⟩ (ciphering_runInvariant cipher keyrdy isRound) noReset
  obtain ⟨mode, ctr, done, -⟩ := fsmUpdate_last (running ▸ modeOf_ne_idle p) last w
  obtain ⟨ik, ek, ready, blk⟩ := ciphering_clockEdge cipher isRound running host holds a
  rw [last, roundsBefore_80] at blk
  exact ⟨_, ran, blk, done, mode, ctr, ready, ik, ek, inputs⟩

end

/-- Settles O47: the rounds of the 80 edges are those of `encryptBlock`. -/
theorem encryptCommandTransformsBlock : Obligations.EncryptCommandTransformsBlock := fun s =>
  cipher_command (p := .encrypt) (by decide) (encRound_isRoundOf s.ek)

/-- Settles O48: the iterations of the 80 edges are those of `decryptBlock`. -/
theorem decryptCommandTransformsBlock : Obligations.DecryptCommandTransformsBlock := fun s =>
  cipher_command (p := .decrypt) (by decide) (decRound_isRoundOf s.ek)

/-! ### The latency -/

theorem memRead_status_busy (s : State) : (memRead s 0x01#8).getLsbD 0 = busy s := by
  rw [memRead_status (by decide), statusWord_getLsbD, if_pos rfl]

/-- The mode, the counter and the inputs need no invariant beside them. -/
theorem trivial_runInvariant (p : Command) (s : State) : RunInvariant p s fun _ => True :=
  ⟨fun _ => trivial, fun _ _ => trivial, fun _ _ _ _ _ _ _ => trivial⟩

/-- Settles O49: BUSY is the mode, which is the command's at each of the 80 edges and IDLE after the last. -/
theorem commandLatencyIs80 : Obligations.CommandLatencyIs80 := by
  intro s p n idle ready presents start stop noReset
  have starts : Starts p s := ⟨idle, ready, presents⟩
  by_cases running : n ≤ 80
  · obtain ⟨k, rfl⟩ := Nat.exists_eq_add_of_le' start
    obtain ⟨t, ran, mode, ctr, -, -⟩ := command_runs starts (trivial_runInvariant p s) (by omega) noReset
    have busyReads : (memRead t 0x01#8).getLsbD 0 = true := by
      rw [memRead_status_busy, busy, mode, bne_iff_ne]
      exact modeOf_ne_idle p
    exact ⟨t, ran, fun _ => ⟨busyReads, mode, ctr⟩, fun last => by omega⟩
  · obtain rfl : n = 81 := by omega
    obtain ⟨t, w, a, ran, -, running, last, -, -⟩ := command_last_edge starts (trivial_runInvariant p s) noReset
    obtain ⟨mode, -, done, -⟩ := fsmUpdate_last (running ▸ modeOf_ne_idle p) last w
    have freeReads : (memRead (clockEdge a t w) 0x01#8).getLsbD 0 = false := by
      rw [memRead_status_busy, busy, clockEdge_mode, mode, bne_self_eq_false]
    exact ⟨_, ran, fun within => by omega, fun _ => ⟨freeReads, mode, done⟩⟩

end Sys2Proof.Machine

/-! What the host cannot see (93_implementation_defined.md section 1): states that a host cannot tell apart stay so. -/

namespace Sys2Proof.Machine

section
variable {s t w x : State}

/-! ### What the host sees -/

/-- No read shows a word of the store that the spec leaves unspecified, and none shows the window. -/
theorem SameToHost.memRead_eq (same : SameToHost s t) (a : SlotAddr) : memRead s a = memRead t a := by
  cases slot : slotOf a with
  | cmd => rw [memRead_cmd slot, memRead_cmd slot]
  | status =>
    rw [memRead_status slot, memRead_status slot, statusWord, statusWord, busy, busy, same.mode, same.errcode, same.err,
      same.keyrdy, same.done]
  | irqen => rw [memRead_irqen slot, memRead_irqen slot, same.irqen]
  | key j => rw [memRead_key slot, memRead_key slot, same.ik]
  | blk j => rw [memRead_blk slot, memRead_blk slot, same.mode, same.blk]
  | ek u =>
    rw [memRead_ek slot, memRead_ek slot, ← same.keyrdy]
    split
    · next ready => rw [same.store (.inl ready)]
    · rfl
  | reserved => rw [memRead_reserved slot, memRead_reserved slot]

theorem SameToHost.irq_eq (same : SameToHost s t) : irq s = irq t := by
  rw [irq, irq, same.done, same.err, same.irqen]

/-! ### The host write's part of an edge -/

theorem SameToHost.raiseError (same : SameToHost s t) (c : ErrorCode) :
    SameToHost (raiseError c s) (raiseError c t) :=
  { same with err := rfl, errcode := by rw [raiseError_errcode, raiseError_errcode, same.err, same.errcode] }

theorem SameToHost.writeStatus (same : SameToHost s t) (v : Word) : SameToHost (writeStatus v s) (writeStatus v t) := by
  rw [writeStatus_eq, writeStatus_eq]
  exact { same with
    done := by rw [same.done]
    err := by rw [same.err]
    errcode := by rw [same.errcode] }

theorem SameToHost.writeKey (same : SameToHost s t) (j : Fin 4) (v : Word) :
    SameToHost (writeKey j v s) (writeKey j v t) := by
  rw [Machine.writeKey, Machine.writeKey, ← same.mode]
  split
  · next idle =>
    exact { same with
      ik := by rw [setKey_ik, setKey_ik, same.ik]
      keyrdy := rfl
      store := by simp [idle] }
  · exact same.raiseError .busy

theorem SameToHost.writeBlk (same : SameToHost s t) (j : Fin 5) (v : Word) :
    SameToHost (writeBlk j v s) (writeBlk j v t) := by
  rw [Machine.writeBlk, Machine.writeBlk, ← same.mode]
  split
  · exact { same with blk := by rw [setBlk_blk, setBlk_blk, same.blk] }
  · exact same.raiseError .busy

/-- A command starts at step 0, where nothing of the store or the window is specified by the command itself. -/
theorem SameToHost.accept (same : SameToHost s t) {p : Command} (ready : p = .expand ∨ s.keyrdy = true) :
    SameToHost (accept p s) (accept p t) :=
  { same with
    mode := rfl
    ctr := rfl
    done := rfl
    keyrdy := by rw [accept_keyrdy, accept_keyrdy, same.keyrdy]
    store := by
      intro looked
      rcases ready with rfl | keyrdy
      · simp [modeOf] at looked
      · exact same.store (.inl keyrdy)
    filled := by
      intro _ u written
      simp at written
    window := by
      intro _ j written
      simp only [accept_ctr, Fin.val_zero] at written
      omega }

theorem SameToHost.writeCommand (same : SameToHost s t) (p : Command) :
    SameToHost (writeCommand p s) (writeCommand p t) := by
  by_cases idle : s.mode = .idle
  · by_cases ready : p = .expand ∨ s.keyrdy = true
    · rw [writeCommand_eq_accept idle ready, writeCommand_eq_accept (same.mode ▸ idle) (same.keyrdy ▸ ready)]
      exact same.accept ready
    · obtain ⟨cipher, notReady⟩ := not_or.mp ready
      have noKey : s.keyrdy = false := Bool.eq_false_iff.mpr notReady
      rw [writeCommand_eq_noKey idle cipher noKey,
        writeCommand_eq_noKey (same.mode ▸ idle) cipher (same.keyrdy ▸ noKey)]
      exact same.raiseError .noKey
  · rw [writeCommand_eq_busy idle, writeCommand_eq_busy (same.mode ▸ idle)]
    exact same.raiseError .busy

theorem SameToHost.writeCmd (same : SameToHost s t) (v : Word) : SameToHost (writeCmd v s) (writeCmd v t) := by
  cases names : commandOf v with
  | none =>
    rw [writeCmd_of_illegal names, writeCmd_of_illegal names]
    exact same.raiseError .illegalCmd
  | some p =>
    rw [writeCmd_of_command names, writeCmd_of_command names]
    exact same.writeCommand p

theorem SameToHost.memWrite (same : SameToHost s t) (a : SlotAddr) (v : Word) :
    SameToHost (memWrite a v s) (memWrite a v t) := by
  cases slot : slotOf a with
  | cmd => rw [memWrite_cmd slot, memWrite_cmd slot]; exact same.writeCmd v
  | status => rw [memWrite_status slot, memWrite_status slot]; exact same.writeStatus v
  | irqen => rw [memWrite_irqen slot, memWrite_irqen slot]; exact { same with irqen := rfl }
  | key j => rw [memWrite_key slot, memWrite_key slot]; exact same.writeKey j v
  | blk j => rw [memWrite_blk slot, memWrite_blk slot]; exact same.writeBlk j v
  | ek u => rw [memWrite_ek slot, memWrite_ek slot]; exact same
  | reserved => rw [memWrite_reserved slot, memWrite_reserved slot]; exact same

theorem SameToHost.hostPart (same : SameToHost s t) (i : Instr) : SameToHost (hostPart i s) (hostPart i t) := by
  cases i with
  | expand => exact same.writeCommand .expand
  | encrypt => exact same.writeCommand .encrypt
  | decrypt => exact same.writeCommand .decrypt
  | rd a => exact same
  | wr a v => exact same.memWrite a v

/-! ### The expander's step -/

/-- The expander's taps lie in the window's written words (42_key_schedule.md R145). -/
theorem SameToHost.expanderWord_eq (same : SameToHost s t) (expanding : s.mode = .expand) :
    expanderWord s.ik s.win s.ctr = expanderWord t.ik t.win t.ctr := by
  rw [expanderWord, expanderWord, ← same.ik, ← same.ctr]
  split
  · rfl
  · next late =>
    have tap (j : Fin 16) : s.win[j] = t.win[j] := same.window expanding j (by omega)
    have tap13 : s.win[13] = t.win[13] := tap 13
    have tap8 : s.win[8] = t.win[8] := tap 8
    have tap2 : s.win[2] = t.win[2] := tap 2
    have tap0 : s.win[0] = t.win[0] := tap 0
    rw [tap13, tap8, tap2, tap0]

/-- The same subkey is written to the store on both sides. -/
theorem SameToHost.expand_ek (same : SameToHost s t) (expanding : s.mode = .expand) (w x : State) :
    ∃ k : Word, (fsmUpdate s w).ek = s.ek.set s.ctr k ∧ (fsmUpdate t x).ek = t.ek.set s.ctr k := by
  refine ⟨_, fsmUpdate_expand_ek expanding w, ?_⟩
  rw [same.expanderWord_eq expanding]
  simp only [same.ctr, fsmUpdate_expand_ek (same.mode ▸ expanding) x]

theorem SameToHost.filled_through (same : SameToHost s t) (expanding : s.mode = .expand) {u : Fin 80}
    (written : u.val ≤ s.ctr.val) (w x : State) : (fsmUpdate s w).ek[u] = (fsmUpdate t x).ek[u] := by
  obtain ⟨k, ek, ek'⟩ := same.expand_ek expanding w x
  rw [ek, ek', Fin.getElem_fin, Fin.getElem_fin, Vector.getElem_set, Vector.getElem_set]
  split
  · rfl
  · next apart => exact same.filled expanding u (by omega)

theorem SameToHost.shifted_window (same : SameToHost s t) (expanding : s.mode = .expand) (below : s.ctr.val < 79)
    {j : Fin 16} (written : 16 ≤ s.ctr.val + 1 + j.val) (w x : State) :
    (fsmUpdate s w).win[j] = (fsmUpdate t x).win[j] := by
  rw [fsmUpdate_expand_win expanding below, fsmUpdate_expand_win (same.mode ▸ expanding) (same.ctr ▸ below),
    same.expanderWord_eq expanding]
  by_cases top : j.val = 15
  · obtain rfl : j = 15 := Fin.ext top
    exact (shiftWindow_top s.win _).trans (shiftWindow_top t.win _).symm
  · have inside : j.val + 1 < 16 := by omega
    rw [Fin.getElem_fin, Fin.getElem_fin, shiftWindow_below _ _ _ inside, shiftWindow_below _ _ _ inside]
    exact same.window expanding ⟨j.val + 1, inside⟩ (by simp only; omega)

/-! ### The edge of a running command -/

/-- The counter, the completion and KEYRDY do not depend on the words the host cannot see. -/
theorem SameToHost.fsmUpdate_control (same : SameToHost s t) (busy : s.mode ≠ .idle) (written : SameToHost w x) :
    (fsmUpdate s w).mode = (fsmUpdate t x).mode ∧ (fsmUpdate s w).ctr = (fsmUpdate t x).ctr ∧
    (fsmUpdate s w).done = (fsmUpdate t x).done ∧ (fsmUpdate s w).keyrdy = (fsmUpdate t x).keyrdy := by
  have busy' : t.mode ≠ .idle := same.mode ▸ busy
  have bound := s.ctr.isLt
  have ctr : s.ctr.val = t.ctr.val := congrArg Fin.val same.ctr
  have keyrdy (notCompleting : ¬(s.mode = .expand ∧ s.ctr.val = 79)) :
      (fsmUpdate s w).keyrdy = (fsmUpdate t x).keyrdy := by
    rw [fsmUpdate_keyrdy notCompleting, fsmUpdate_keyrdy (same.mode ▸ same.ctr ▸ notCompleting), written.keyrdy]
  by_cases last : s.ctr.val = 79
  · obtain ⟨mode, zero, done, ready⟩ := fsmUpdate_last busy last w
    obtain ⟨mode', zero', done', ready'⟩ := fsmUpdate_last busy' (ctr ▸ last) x
    refine ⟨mode.trans mode'.symm, zero.trans zero'.symm, done.trans done'.symm, ?_⟩
    by_cases expanding : s.mode = .expand
    · rw [ready expanding, ready' (same.mode ▸ expanding)]
    · exact keyrdy fun completing => expanding completing.1
  · obtain ⟨mode, next⟩ := fsmUpdate_below busy (by omega) w
    obtain ⟨mode', next'⟩ := fsmUpdate_below busy' (by omega) x
    obtain ⟨-, done⟩ := fsmUpdate_keeps_mode_done (.inr last) w
    obtain ⟨-, done'⟩ := fsmUpdate_keeps_mode_done (p := t) (.inr (by omega)) x
    exact ⟨by rw [mode, mode', written.mode], Fin.ext (by rw [next, next', ctr]), by rw [done, done', written.done],
      keyrdy fun completing => last completing.2⟩

/-- A cipher's round reads the store only where it is specified (92_eei_decisions.md D29). -/
theorem SameToHost.fsmUpdate_blk (same : SameToHost s t) (written : SameToHost w x) :
    (fsmUpdate s w).blk = (fsmUpdate t x).blk := by
  cases mode : s.mode with
  | idle | expand =>
    rw [fsmUpdate_keeps_blk (by simp [mode]), fsmUpdate_keeps_blk (by simp [← same.mode, mode]), written.blk]
  | encrypt =>
    rw [fsmUpdate_encrypt_blk mode, fsmUpdate_encrypt_blk (same.mode ▸ mode), same.blk, same.store (.inr (.inl mode))]
    simp only [same.ctr]
  | decrypt =>
    rw [fsmUpdate_decrypt_blk mode, fsmUpdate_decrypt_blk (same.mode ▸ mode), same.blk, same.store (.inr (.inr mode))]
    simp only [same.ctr]

/-- The store after an edge of EXPAND is the same wherever KEYRDY specifies it: KEYRDY was set already, or the step was
the last. -/
theorem SameToHost.expand_store (same : SameToHost s t) (expanding : s.mode = .expand) (host : HostEffect s w)
    (x : State) (ready : (fsmUpdate s w).keyrdy = true) : (fsmUpdate s w).ek = (fsmUpdate t x).ek := by
  by_cases last : s.ctr.val = 79
  · apply Vector.ext
    intro u bound
    exact same.filled_through expanding (u := ⟨u, bound⟩) (by simp only; omega) w x
  · obtain ⟨-, -, -, -, hostKeyrdy⟩ := host.busy_frame (by simp [expanding])
    have keyrdy : s.keyrdy = true := by rw [← hostKeyrdy, ← ready, fsmUpdate_keyrdy fun completing => last completing.2]
    obtain ⟨k, ek, ek'⟩ := same.expand_ek expanding w x
    rw [ek, ek', same.store (.inl keyrdy)]

theorem SameToHost.clockEdge_of_busy (same : SameToHost s t) (busy : s.mode ≠ .idle) (host : HostEffect s w)
    (host' : HostEffect t x) (written : SameToHost w x) (a : SlotAddr) :
    SameToHost (clockEdge a s w) (clockEdge a t x) := by
  obtain ⟨ik, err, errcode, irqen, inputs⟩ := fsmUpdate_frame s w
  obtain ⟨ik', err', errcode', irqen', inputs'⟩ := fsmUpdate_frame t x
  obtain ⟨mode, ctr, done, keyrdy⟩ := same.fsmUpdate_control busy written
  have next := clockEdge_running busy host a
  have stillExpanding (running : (clockEdge a s w).mode = .expand) :
      s.mode = .expand ∧ s.ctr.val < 79 ∧ (clockEdge a s w).ctr.val = s.ctr.val + 1 := by
    rcases next with ⟨below, kept, rises⟩ | ⟨-, stopped, -⟩
    · exact ⟨kept.symm.trans running, below, rises⟩
    · rw [stopped] at running
      contradiction
  exact {
    ik := by rw [clockEdge_ik, clockEdge_ik, ik, ik', written.ik]
    blk := same.fsmUpdate_blk written
    mode := mode
    ctr := ctr
    keyrdy := keyrdy
    done := done
    err := by rw [clockEdge_err, clockEdge_err, err, err', written.err]
    errcode := by rw [clockEdge_errcode, clockEdge_errcode, errcode, errcode', written.errcode]
    irqen := by rw [clockEdge_irqen, clockEdge_irqen, irqen, irqen', written.irqen]
    rdata := same.memRead_eq a
    inputs := by rw [clockEdge_inputs, clockEdge_inputs, inputs, inputs', written.inputs]
    store := by
      intro looked
      by_cases expanding : s.mode = .expand
      · refine same.expand_store expanding host x (looked.resolve_right ?_)
        rcases next with ⟨-, kept, -⟩ | ⟨-, stopped, -⟩
        · simp only [kept, expanding]; decide
        · simp only [stopped]; decide
      · have ciphering := ciphering_of_running busy expanding
        obtain ⟨-, ek, -⟩ := clockEdge_keeps_key_material ciphering host a
        obtain ⟨-, ek', -⟩ := clockEdge_keeps_key_material (same.mode ▸ ciphering) host' a
        rw [ek, ek', same.store (.inr ciphering)]
    filled := by
      intro running u filled
      obtain ⟨expanding, -, rises⟩ := stillExpanding running
      exact same.filled_through expanding (by omega) w x
    window := by
      intro running j present
      obtain ⟨expanding, below, rises⟩ := stillExpanding running
      exact same.shifted_window expanding below (by omega) w x }

/-! ### Every step -/

theorem SameToHost.clockEdge (same : SameToHost s t) (i : Instr) :
    SameToHost (clockEdge (busSlot i) s (Machine.hostPart i s)) (clockEdge (busSlot i) t (Machine.hostPart i t)) := by
  have written := same.hostPart i
  by_cases idle : s.mode = .idle
  · rw [clockEdge_idle idle, clockEdge_idle (same.mode ▸ idle)]
    exact { written with rdata := same.memRead_eq _ }
  · exact same.clockEdge_of_busy idle (hostPart_effect i s) (hostPart_effect i t) written _

/-- After reset nothing of the store or the window is specified (10_state.md R37). -/
theorem SameToHost.resetEdge (same : SameToHost s t) (a : SlotAddr) : SameToHost (resetEdge a s) (resetEdge a t) where
  ik := rfl
  blk := rfl
  mode := rfl
  ctr := rfl
  keyrdy := rfl
  done := rfl
  err := rfl
  errcode := rfl
  irqen := rfl
  rdata := same.memRead_eq a
  inputs := same.inputs
  store := by simp
  filled := by simp
  window := by simp

theorem SameToHost.takeInput (same : SameToHost s t) : SameToHost (takeInput s) (takeInput t) :=
  { same with inputs := by rw [takeInput_inputs, takeInput_inputs, same.inputs] }

theorem SameToHost.step (same : SameToHost s t) :
    ∃ s' t', Machine.step s = .next s' ∧ Machine.step t = .next t' ∧ SameToHost s' t' := by
  have ports : presented s = presented t := by rw [presented, presented, same.inputs]
  cases rst : (presented s).rst with
  | true => exact ⟨_, _, step_reset rst, step_reset (ports ▸ rst), ports ▸ same.takeInput.resetEdge _⟩
  | false =>
    refine ⟨_, _, (step_noReset rst).trans (exec_eq_clockEdge _ _),
      (step_noReset (ports ▸ rst)).trans (exec_eq_clockEdge _ _), ?_⟩
    rw [← ports]
    exact same.takeInput.clockEdge _

end

/-- Settles O52: the reads and `irq` look at specified words only, and so does every step. -/
theorem hostCannotSeeUnspecifiedWords : Obligations.HostCannotSeeUnspecifiedWords := fun _ _ same =>
  ⟨same.memRead_eq, same.irq_eq, same.step⟩

end Sys2Proof.Machine
